-- ==== Sys2Proof/Word.lean ====
section
/-! DEFINITION. The word types of WSEQ (30_encoding.md rules R90, R93, R95, R96) and their plainest arithmetic.
Every quantity of the block is unsigned (00_scope.md R11). -/

namespace Sys2Proof

/-- A command word, format CMD32, and the data word of an answer (R95, R96). -/
abbrev Word := BitVec 32

/-- A duty word, format DUTY16: POL in bit 15, DUTY in bits 14..0 (R90). -/
abbrev Duty := BitVec 16

/-- A color word: first channel in bits 23..16, second in 15..8, third in 7..0 (R93). -/
abbrev Color := BitVec 24

/-- One byte of the byte view of the buffer (R62). -/
abbrev Byte := BitVec 8

/-- `v[hi:lo]` of R11, as an unsigned number of `n` bits starting at bit `lo`. -/
abbrev field {w : Nat} (v : BitVec w) (lo n : Nat) : BitVec n := v.extractLsb' lo n

end Sys2Proof
end

