-- ==== Sys2Proof/Config.lean ====
section
/-! DEFINITION. What is fixed for the machine: the structural constants of R7, the TimingTable constants of R8 and R121,
the reference figures of R9, and the one free value of the model, the order of the agents' turns. -/

namespace Sys2Proof

/-- Who takes the next step (00_scope.md R6, 60_exceptions.md R230): one of the four agents, or reset from outside
(70_reset_and_hazards.md R260). -/
inductive Turn where
  | host
  | player
  | timer
  | animator
  | reset
  deriving DecidableEq, Repr, Inhabited

namespace Config

/-- NBITS, color bits in a buffer (R7). -/
abbrev nbits : Nat := 24

/-- NENT, entries of the buffer: one for each color bit and the reset entry (R7). -/
abbrev nent : Nat := 25

/-- WLO, the low end of the sweep window (R7). -/
def windowLow : BitVec 5 := 16

/-- WHI, the high end of the sweep window (R7). -/
def windowHigh : BitVec 5 := 20

/-- SYMTICKS, ticks of one symbol in the reference configuration (R8). -/
def symTicks : Nat := 20

/-- DUTY0 (R8; DESIGN CHOICE of the spec, D5; log 10; unsafe). -/
def duty0 : BitVec 15 := 7

/-- DUTY1 (R8; DESIGN CHOICE of the spec, D5; log 10; unsafe). -/
def duty1 : BitVec 15 := 13

/-- DUTYR: the reset code is the all-low condition (R8). -/
def dutyR : BitVec 15 := 0

/-- A duty word from its polarity flag and duty value (R90). -/
def dutyWord (pol : Bool) (duty : BitVec 15) : Duty := (BitVec.ofBool pol ++ duty).cast rfl

/-- CODE0, the protocol "0" (R121). -/
def code0 : Duty := dutyWord true duty0

/-- CODE1, the protocol "1" (R121). -/
def code1 : Duty := dutyWord true duty1

/-- CODER, the reset code (R121). -/
def codeR : Duty := dutyWord true dutyR

/-- F_BASE in Hz, the undivided tick clock of the reference configuration (R9; read by no rule of the machine). -/
def fBase : Nat := 16000000

/-- FREE VALUE (log 1; safe): the turn taken when the list of decided turns is empty, for each value of the turn counter.
The spec fixes no order among the agents' enabled steps (R44, R230), so nothing constrains it. -/
opaque freeTurn : Nat → Turn

end Config

end Sys2Proof
end

