-- ==== Sys2Proof/Syntax.lean ====
section
/-! DEFINITION. The instructions: the eleven commands HOST presents and the three canonical duty words PLAYER executes,
one constructor for each row of spec/opcode_table.json; the pseudo-commands of R112 and the assembler text of R111. -/

namespace Sys2Proof

/-- The buffer load mode, 1 bit (10_state.md R25): 0 = COMMON, 1 = PER_CHANNEL. -/
inductive Load where
  | common
  | perChannel
  deriving DecidableEq, Repr

/-- The code of a load mode (R25). -/
def Load.bit : Load → Bool
  | .common => false
  | .perChannel => true

/-- The load mode a code stands for (R97). -/
def Load.ofBit : Bool → Load
  | false => .common
  | true => .perChannel

/-- The commands (30_encoding.md R97 to R107) and the canonical duty words (R91). Operands stand in the order of R111. -/
inductive Instr where
  /-- CONFIGURE div, top, load, pin (R97, R151). -/
  | configure (div : BitVec 3) (top : BitVec 16) (load : Load) (pin : BitVec 8)
  /-- SETDELAY n (R98, R155). -/
  | setdelay (delay : BitVec 24)
  /-- ENCODE color (R99, R133). -/
  | encode (color : Color)
  /-- WRITE idx, bit (R100, R134). -/
  | write (idx : BitVec 5) (bit : Bool)
  /-- READ idx (R101, R135). -/
  | read (idx : BitVec 5)
  /-- RDCSR n (R102, R136). -/
  | rdcsr (n : BitVec 3)
  /-- START n (R103, R160). -/
  | start (rpt : BitVec 16)
  /-- STOP (R104, R170). -/
  | stop
  /-- WAIT (R105, R195). -/
  | wait
  /-- ASTEP (R106, R191). -/
  | astep
  /-- ARUN n (R107, R198). -/
  | arun (rpt : BitVec 16)
  /-- The duty word CODE0, executed by PLAYER (R121, R176). -/
  | sym0
  /-- The duty word CODE1, executed by PLAYER (R121, R176). -/
  | sym1
  /-- The duty word CODER, executed by PLAYER (R121, R176). -/
  | symr
  deriving DecidableEq, Repr

/-- The instruction is a command of HOST, not a duty word of PLAYER. -/
def Instr.isCommand : Instr → Bool
  | .sym0 | .sym1 | .symr => false
  | .configure .. | .setdelay .. | .encode .. | .write .. | .read .. | .rdcsr .. | .start .. | .stop | .wait | .astep
  | .arun .. => true

/-- READ and RDCSR: the commands RUN mode leaves to HOST (R203, R229). -/
def Instr.onlyReads : Instr → Bool
  | .read .. | .rdcsr .. => true
  | .configure .. | .setdelay .. | .encode .. | .write .. | .start .. | .stop | .wait | .astep | .arun .. | .sym0 | .sym1
  | .symr => false

/-- SETRGB g, r, b (R112). -/
def pseudoSetRgb (g r b : Byte) : List Instr := [.encode ((g ++ r ++ b).cast rfl)]

/-- FRAME n, one iteration of the loop in the order start, wait, stop, mutate (R112, R197). -/
def pseudoFrame (n : BitVec 16) : List Instr := [.start n, .wait, .stop, .astep]

/-- BOOT with the pin it leaves open (R112). -/
def pseudoBoot (pin : BitVec 8) : List Instr :=
  [.configure 0 20 .common pin, .setdelay 799, .encode 0x0000FF]

/-- PATCH idx, bit (R112). -/
def pseudoPatch (idx : BitVec 5) (bit : Bool) : List Instr := [.write idx bit]

/-- The assembler text of an instruction (R111); a duty word, which R111 gives no text, shows its row's name. -/
def Instr.text : Instr → String
  | .configure d t l p => "CONFIGURE " ++ toString d.toNat ++ ", " ++ toString t.toNat ++ ", "
      ++ (if l = .common then "COMMON" else "PER_CHANNEL") ++ ", " ++ toString p.toNat
  | .setdelay d => "SETDELAY " ++ toString d.toNat
  | .encode c => "ENCODE " ++ toString c.toNat
  | .write i b => "WRITE " ++ toString i.toNat ++ ", " ++ (if b then "1" else "0")
  | .read i => "READ " ++ toString i.toNat
  | .rdcsr n => "RDCSR " ++ toString n.toNat
  | .start n => "START " ++ toString n.toNat
  | .stop => "STOP"
  | .wait => "WAIT"
  | .astep => "ASTEP"
  | .arun n => "ARUN " ++ toString n.toNat
  | .sym0 => "SYM0"
  | .sym1 => "SYM1"
  | .symr => "SYMR"

end Sys2Proof
end

