-- ==== Sys2Proof/WellFormed.lean ====
section
/-! DEFINITION. The range constraints of 30_encoding.md R108, the only ones an instruction's operands have. -/

namespace Sys2Proof

/-- WRITE has IDX at most 23, READ at most 24, RDCSR has N at most 6 (R108, 20_memory.md R63). -/
def Instr.wellFormed : Instr → Bool
  | .write idx _ => decide (idx.toNat ≤ 23)
  | .read idx => decide (idx.toNat ≤ 24)
  | .rdcsr n => decide (n.toNat ≤ 6)
  | .configure .. | .setdelay .. | .encode .. | .start .. | .stop | .wait | .astep | .arun .. | .sym0 | .sym1 | .symr =>
    true

end Sys2Proof
end

