-- ==== Sys2Proof/Decode.lean ====
section
/-! DEFINITION. Decoding, total on every 32-bit command word and every 16-bit duty word (30_encoding.md R108, R110), and the
encoder, written from the same rules R91 and R97 to R107. -/

namespace Sys2Proof

/-- The binary forms of the block (R110): a 32-bit command word, or a 16-bit duty word. -/
inductive Code where
  | cmd32 (w : Word)
  | duty16 (w : Duty)
  deriving DecidableEq, Repr

/-- Why a word decodes to no instruction. The first three are R108's illegal command words; the last is a duty word with no
row of its own (40_timing_table.md, head; R92). -/
inductive Reject where
  /-- OP is 0x0 or 0xC..0xF. -/
  | reservedOp
  /-- A reserved bit of the operation's payload is not 0. -/
  | reservedBits
  /-- WRITE with IDX 24..31, READ with IDX 25..31, RDCSR with N = 7. -/
  | indexRange
  /-- A duty word other than CODE0, CODE1, CODER. -/
  | genericDuty
  deriving DecidableEq, Repr

/-- The instruction, if the payload's reserved bits are 0 and its range constraint holds. -/
def checked (reservedZero : Bool) (i : Instr) : Except Reject Instr :=
  if reservedZero then (if i.wellFormed then .ok i else .error .indexRange) else .error .reservedBits

/-- A command word (R95, R97 to R108). OP, bits 31..28, alone separates the rows. -/
def decodeCommand (w : Word) : Except Reject Instr :=
  match (field w 28 4).toNat with
  | 1 => checked true (.configure (field w 25 3) (field w 0 16) (Load.ofBit (w.getLsbD 24)) (field w 16 8))
  | 2 => checked (field w 24 4 == 0) (.setdelay (field w 0 24))
  | 3 => checked (field w 24 4 == 0) (.encode (field w 0 24))
  | 4 => checked (field w 13 15 == 0 && field w 1 7 == 0) (.write (field w 8 5) (w.getLsbD 0))
  | 5 => checked (field w 5 23 == 0) (.read (field w 0 5))
  | 6 => checked (field w 3 25 == 0) (.rdcsr (field w 0 3))
  | 7 => checked (field w 16 12 == 0) (.start (field w 0 16))
  | 8 => checked (field w 0 28 == 0) .stop
  | 9 => checked (field w 0 28 == 0) .wait
  | 10 => checked (field w 0 28 == 0) .astep
  | 11 => checked (field w 16 12 == 0) (.arun (field w 0 16))
  | _ => .error .reservedOp

/-- A duty word as PLAYER reads it (R91, R92). -/
def decodeDuty (w : Duty) : Except Reject Instr :=
  if w = Config.code0 then .ok .sym0
  else if w = Config.code1 then .ok .sym1
  else if w = Config.codeR then .ok .symr
  else .error .genericDuty

/-- Decoding of either form. -/
def decode : Code → Except Reject Instr
  | .cmd32 w => decodeCommand w
  | .duty16 w => decodeDuty w

/-- The word of an instruction, from the fields of R97 to R107 with every reserved bit 0, and R91 for the duty words. -/
def encode : Instr → Code
  | .configure div top load pin => .cmd32 ((1#4 ++ div ++ BitVec.ofBool load.bit ++ pin ++ top).cast rfl)
  | .setdelay delay => .cmd32 ((2#4 ++ 0#4 ++ delay).cast rfl)
  | .encode color => .cmd32 ((3#4 ++ 0#4 ++ color).cast rfl)
  | .write idx bit => .cmd32 ((4#4 ++ 0#15 ++ idx ++ 0#7 ++ BitVec.ofBool bit).cast rfl)
  | .read idx => .cmd32 ((5#4 ++ 0#23 ++ idx).cast rfl)
  | .rdcsr n => .cmd32 ((6#4 ++ 0#25 ++ n).cast rfl)
  | .start rpt => .cmd32 ((7#4 ++ 0#12 ++ rpt).cast rfl)
  | .stop => .cmd32 ((8#4 ++ 0#28).cast rfl)
  | .wait => .cmd32 ((9#4 ++ 0#28).cast rfl)
  | .astep => .cmd32 ((10#4 ++ 0#28).cast rfl)
  | .arun rpt => .cmd32 ((11#4 ++ 0#12 ++ rpt).cast rfl)
  | .sym0 => .duty16 Config.code0
  | .sym1 => .duty16 Config.code1
  | .symr => .duty16 Config.codeR

/-- The code whose bits are `w`, numbered as the opcode table numbers them: 16 bits are a duty word, any other width a
command word whose bits above `nbits` are 0 (DESIGN CHOICE; log 17; safe). Commands are one word and have no byte order
(R13, R95); a duty word is moved whole (20_memory.md R62). -/
def tableCode (nbits w : Nat) : Code :=
  if nbits = 16 then .duty16 (BitVec.ofNat 16 w) else .cmd32 (BitVec.ofNat 32 (w % 2 ^ nbits))

/-- The instruction the decoder reads from an instruction whose bits are `w`. -/
def decodeTableWord (nbits w : Nat) : Option Instr := (decode (tableCode nbits w)).toOption

end Sys2Proof
end

