-- ==== Sys2Proof/Machine/State.lean ====
section
/-! DEFINITION. The state of the block as plain data: every element of 10_state.md R20, the model's own input and answer
fields, and the state after reset (R43). -/

namespace Sys2Proof.Machine

/-- CFG_STATE (R25): 0, 1, 2; the value 3 never occurs. -/
inductive CfgState where
  | unconfigured
  | valid
  | failed
  deriving DecidableEq, Repr

/-- The code CSR2 shows (R25, R37). -/
def CfgState.bits : CfgState → BitVec 2
  | .unconfigured => 0
  | .valid => 1
  | .failed => 2

/-- PSTATE (R27): 0, 1, 2; the value 3 never occurs. -/
inductive PState where
  | idle
  | playing
  | done
  deriving DecidableEq, Repr

/-- The code CSR2 shows (R27, R37). -/
def PState.bits : PState → BitVec 2
  | .idle => 0
  | .playing => 1
  | .done => 2

/-- DIR (R30): 0 = Rising, 1 = Falling. -/
inductive Dir where
  | rising
  | falling
  deriving DecidableEq, Repr

/-- The direction bit, which is also the protocol bit of the tracked value CODE(DIR) (R30, R190). -/
def Dir.bit : Dir → Bool
  | .rising => false
  | .falling => true

/-- APHASE, the ANIMATOR's program counter (R31). -/
inductive APhase where
  | aStart
  | aWait
  | aStop
  | aMutate
  deriving DecidableEq, Repr

/-- The code CSR2 shows (R31, R37). -/
def APhase.bits : APhase → BitVec 2
  | .aStart => 0
  | .aWait => 1
  | .aStop => 2
  | .aMutate => 3

/-- HOLD, the blocking command HOST has issued and not yet seen complete (R32). -/
inductive Hold where
  | none
  | hStop
  | hWait
  deriving DecidableEq, Repr

/-- The four causes a command can raise (60_exceptions.md R220). -/
inductive Cause where
  | config
  | busy
  | illegal
  | ownership
  deriving DecidableEq, Repr

/-- The status of an answer (30_encoding.md R96): OK, or the cause raised. -/
inductive Status where
  | ok
  | err (c : Cause)
  deriving DecidableEq, Repr

/-- The 3-bit status code (R96, R220). -/
def Status.code : Status → BitVec 3
  | .ok => 0
  | .err .config => 1
  | .err .busy => 2
  | .err .illegal => 3
  | .err .ownership => 4

/-- What the block answers to a command (R96): a status and a data word. -/
structure Answer where
  status : Status
  data : Word
  deriving DecidableEq, Repr

/-- The sequence buffer SB[0..24], the block's register file (R21). It is held whole, 25 words; no entry is ever absent
(log 12). -/
abbrev Buffer := Vector Duty Config.nent

/-- Why a step stops the machine. -/
inductive Fault where
  /-- An access to a buffer entry that does not exist (20_memory.md R66: "Indices 25..31 can be spelled in a command word
  and do not exist"). Raised by PLAYER's fetch when IDX is above 24 and by the sweep of ASTEP and A_MUTATE when the new
  POS is above 24; the invariants I2 and I5 of R45 rule both out. Safe: the machine stops where the spec says no state
  ever comes (log 6). -/
  | noSuchEntry (index : Nat)
  deriving DecidableEq, Repr

/-- Why an instruction has no meaning. -/
inductive Refusal where
  /-- An instruction not modelled yet; raised by no arm of `exec`, since every instruction has its meaning. Safe. -/
  | notModelled (mnemonic : String)
  deriving DecidableEq, Repr

/-- The complete state (R20). -/
structure State where
  /-- SB (R21). -/
  sb : Buffer
  /-- CFG_STATE (R25). -/
  cfgState : CfgState
  /-- DIV, the clock divider (R25). -/
  div : BitVec 3
  /-- TOP, ticks in one symbol (R25). -/
  top : BitVec 16
  /-- LOAD, the buffer load mode (R25). -/
  load : Load
  /-- PIN, the output pin assignment, opaque (R25). -/
  pin : BitVec 8
  /-- END_DELAY, ticks of low after entry 24 of each pass (R26). -/
  endDelay : BitVec 24
  /-- PSTATE (R27). -/
  pstate : PState
  /-- PASS_REM, passes still to finish (R27). -/
  passRem : BitVec 16
  /-- IDX, the entry being played (R27). -/
  idx : BitVec 5
  /-- TICK, the tick within the current symbol (R27). -/
  tick : BitVec 15
  /-- INDLY: the cursor is in the end delay of a pass (R27). -/
  indly : Bool
  /-- DLY, end-delay ticks still to run (R27). -/
  dly : BitVec 24
  /-- CUR, the duty word PLAYER latched at tick 0 of the symbol (R29). -/
  cur : Duty
  /-- DOUT, the output pin (R29). -/
  dout : Bool
  /-- POS, the sweep position (R30). -/
  pos : BitVec 5
  /-- DIR, the sweep direction (R30). -/
  dir : Dir
  /-- RUN (R31). -/
  run : Bool
  /-- APHASE (R31). -/
  aphase : APhase
  /-- ARPT, the repeat count ARUN was given (R31). -/
  arpt : BitVec 16
  /-- WAITING, the armed state of the timing service (R32). -/
  waiting : Bool
  /-- HOLD (R32). -/
  hold : Hold
  /-- E_CFG (R33). -/
  eCfg : Bool
  /-- E_BUSY (R33). -/
  eBusy : Bool
  /-- E_ILL (R33). -/
  eIll : Bool
  /-- F_OWN (R33). -/
  fOwn : Bool
  /-- The MODEL's own field: the last answer given to HOST, none before the first and while a command is held (DESIGN
  CHOICE; log 3; safe). -/
  resp : Option Answer
  /-- The MODEL's own field: the command words HOST has yet to present, first one first (R44; DESIGN CHOICE; log 2; safe). -/
  cmds : List Word
  /-- The MODEL's own field: the turns already decided, first one first (R44; DESIGN CHOICE; log 1; safe). -/
  sched : List Turn
  /-- The MODEL's own field: the number of turns taken from the free value (DESIGN CHOICE; log 1; safe). -/
  turns : Nat
  deriving DecidableEq, Repr

/-- The machine right after reset: the table of R43, whose values the spec states for every element. The model's own fields
are empty (DESIGN CHOICE; logs 1 to 3; safe, since no statement rests on them). -/
def State.reset : State where
  sb := (Vector.replicate Config.nbits Config.code0).push Config.codeR
  cfgState := .unconfigured
  div := 0
  top := 0
  load := .common
  pin := 0
  endDelay := 799
  pstate := .idle
  passRem := 0
  idx := 0
  tick := 0
  indly := false
  dly := 0
  cur := Config.codeR
  dout := false
  pos := Config.windowLow
  dir := .rising
  run := false
  aphase := .aStart
  arpt := 0
  waiting := false
  hold := .none
  eCfg := false
  eBusy := false
  eIll := false
  fOwn := false
  resp := none
  cmds := []
  sched := []
  turns := 0

end Sys2Proof.Machine
end

