-- ==== Sys2Proof/Machine/Flags.lean ====
section
/-! DEFINITION. The sticky flags (10_state.md R33) and the derived bit LENT (R28). The block has no arithmetic condition
codes (R33), so these are all the flag computations there are. -/

namespace Sys2Proof.Machine

/-- LENT = (PSTATE ≠ IDLE) (R28): DONE is still lent. -/
def State.lent (s : State) : Bool := decide (s.pstate ≠ .idle)

/-- Set the sticky flag of a cause (R33, R220). Nothing but reset clears one (R231). -/
def State.setFlag (s : State) : Cause → State
  | .config => { s with eCfg := true }
  | .busy => { s with eBusy := true }
  | .illegal => { s with eIll := true }
  | .ownership => { s with fOwn := true }

/-- The sticky flag of a cause. -/
def State.flag (s : State) : Cause → Bool
  | .config => s.eCfg
  | .busy => s.eBusy
  | .illegal => s.eIll
  | .ownership => s.fOwn

end Sys2Proof.Machine
end

