-- ==== Sys2Proof/Machine/Ops.lean ====
section
/-! DEFINITION. The named operations on the state: answering a command, raising a cause (the one way an error is taken), the
common checks, and the accesses to the sequence buffer. -/

namespace Sys2Proof.Machine

/-- One step's outcome. -/
abbrev Result := Host.Outcome State Fault Refusal

/-- Complete the command with a status and a data word (R12 `return`, R96). -/
def State.answer (s : State) (status : Status) (data : Word) : State :=
  { s with resp := some { status := status, data := data } }

/-- `return OK` (R12): status OK and data 0. -/
def State.answerOk (s : State) : State := s.answer .ok 0

/-- `raise E` (R12, R224): the command ends with the status of the cause and data 0, the cause's sticky flag is set, every
other element stays as it was. This is the block's whole exception entry: it has no vector, no handler and no saved
context (R224), and therefore no return from one (R231). -/
def raise (c : Cause) (s : State) : Result := .next ((s.setFlag c).answer (.err c) 0)

/-- The second common check (R229, R203): in RUN mode every command but READ and RDCSR raises ERR_BUSY. -/
def inHostMode (s : State) (k : Result) : Result := if s.run then raise .busy s else k

/-- The ownership check of a command that would write the buffer (20_memory.md R67). -/
def whileOwned (s : State) (k : Result) : Result := if s.lent then raise .ownership s else k

/-- Read a buffer entry (R12 `SB[i]`); nothing stands at an index above 24 (R66). -/
def readEntry (b : Buffer) (i : Nat) : Option Duty := b[i]?

/-- Write a buffer entry (R12 `SB[i] <- v`); nothing stands at an index above 24 (R66). -/
def writeEntry (b : Buffer) (i : Nat) (w : Duty) : Option Buffer := if h : i < Config.nent then some (b.set i w h) else none

/-- The state with one buffer entry written; an index above 24 stops the machine (log 6; safe). -/
def storeEntry (i : Nat) (w : Duty) (s : State) : Result :=
  match writeEntry s.sb i w with
  | some b => .next { s with sb := b }
  | none => .fault (.noSuchEntry i)

/-- The byte view of the buffer (R62): entry i is bytes 2i and 2i + 1, the less significant byte first. No rule reads it. -/
def byteView (b : Buffer) (a : Nat) : Option Byte :=
  (readEntry b (a / 2)).map fun w => field w (8 * (a % 2)) 8

end Sys2Proof.Machine
end

