-- ==== Sys2Proof/Machine/Operands.lean ====
section
/-! DEFINITION. What the operands mean: protocol bits and duty words (40_timing_table.md), color words and buffers
(41_bit_encoder_and_buffer.md R131, R132), and the judgement of CONFIGURE's arguments (42_sequence_player.md R153). -/

namespace Sys2Proof.Machine

/-- CODE(b) (R122). -/
def code (b : Bool) : Duty := if b then Config.code1 else Config.code0

/-- BITOF(w) (R123): undefined on every word but CODE0 and CODE1. -/
def bitOf (w : Duty) : Option Bool :=
  if w = Config.code0 then some false else if w = Config.code1 then some true else none

/-- The POL field of a duty word (R90). -/
def polOf (w : Duty) : Bool := w.getLsbD 15

/-- The DUTY field of a duty word (R90). -/
def dutyOf (w : Duty) : BitVec 15 := field w 0 15

/-- level(w, t), the pin level in tick t of a symbol of the duty word w (R124), total over all words (R92). -/
def level (w : Duty) (t : Nat) : Bool :=
  if polOf w then decide (t < (dutyOf w).toNat) else !decide (t < (dutyOf w).toNat)

/-- sym(w), the waveform of one symbol of `top` ticks (R125). -/
def sym (w : Duty) (top : Nat) : List Bool := (List.range top).map (level w)

/-- One pass: the 25 symbols in entry order, then the end delay, all low (R179). -/
def passWave (b : Buffer) (top delay : Nat) : List Bool :=
  (b.toList.map fun w => sym w top).flatten ++ List.replicate delay false

/-- W(s, TOP, END_DELAY, n), the waveform of a playback of n passes (R179). -/
def waveform (b : Buffer) (top delay n : Nat) : List Bool := (List.replicate n (passWave b top delay)).flatten

/-- encode(c) (R131): color bit 23 - i in entry i, and CODER in entry 24. -/
def encodeColor (c : Color) : Buffer :=
  Vector.ofFn fun i => if i.val < Config.nbits then code (c.getLsbD (23 - i.val)) else Config.codeR

/-- The buffer invariant (10_state.md R22): CODER in entry 24, CODE0 or CODE1 in every other. -/
def Buffer.wf (b : Buffer) : Bool :=
  decide (readEntry b 24 = some Config.codeR) &&
    decide (∀ i : Fin 24, readEntry b i.val = some Config.code0 ∨ readEntry b i.val = some Config.code1)

/-- Color bit k of a buffer is BITOF of entry 23 - k (R132). -/
def colorBit (b : Buffer) (k : Nat) : Option Bool := (readEntry b (23 - k)).bind bitOf

/-- decode(s) (R132): the color word of a buffer that satisfies the invariant, undefined on any other; entry 24 carries no
color bit. -/
def decodeBuffer (b : Buffer) : Option Color :=
  if Buffer.wf b then some (BitVec.ofFnLE fun k : Fin 24 => (colorBit b k.val).getD false) else none

/-- CFG_OK (R153), the parameter that judges CONFIGURE's arguments, at the default the spec gives it (log 11; unsafe where
the real hardware judges otherwise). Every `div` is accepted. -/
def cfgOk (_div : BitVec 3) (top : BitVec 16) (load : Load) : Bool :=
  decide (1 ≤ top.toNat) && decide (top.toNat ≤ 32767) && decide (load = .common)

end Sys2Proof.Machine
end

