-- ==== Sys2Proof/Machine/SequencePlayer.lean ====
section
/-! DEFINITION. SequencePlayer's commands: CONFIGURE, SETDELAY, START, STOP (42_sequence_player.md). -/

namespace Sys2Proof.Machine

/-- CONFIGURE div, top, load, pin (R151, R152): one-time; a bad argument leaves CFG_STATE = FAILED beside the error. -/
def execConfigure (div : BitVec 3) (top : BitVec 16) (load : Load) (pin : BitVec 8) (s : State) : Result :=
  inHostMode s
    (if s.cfgState ≠ .unconfigured then raise .config s
    else if cfgOk div top load then
      .next ({ s with div := div, top := top, load := load, pin := pin, cfgState := .valid }.answerOk)
    else raise .config { s with cfgState := .failed })

/-- SETDELAY n (R155): refused under a running playback. -/
def execSetdelay (delay : BitVec 24) (s : State) : Result :=
  inHostMode s (if s.lent then raise .busy s else .next ({ s with endDelay := delay }.answerOk))

/-- The checks START and ARUN share, in their order (R160, R198, R229). -/
def playbackChecks (rpt : BitVec 16) (s : State) (k : Result) : Result :=
  if s.cfgState ≠ .valid then raise .config s
  else if rpt = 0 then raise .config s
  else if s.pstate ≠ .idle then raise .busy s
  else k

/-- The effect of a successful START (R160), which A_START shares (R199): the cursor at entry 0 of the first pass. -/
def beginPlayback (rpt : BitVec 16) (s : State) : State :=
  { s with pstate := .playing, passRem := rpt, idx := 0, tick := 0, indly := false, dly := 0 }

/-- START n (R160, R161). -/
def execStart (rpt : BitVec 16) (s : State) : Result :=
  inHostMode s (playbackChecks rpt s (.next (beginPlayback rpt s).answerOk))

/-- The lend is released (R170 completion, R201): LENT becomes 0. -/
def releasePlayback (s : State) : State := { s with pstate := .idle }

/-- STOP, issue (R170, R171): OK at once when nothing plays, else HOST is held until DONE. No answer is given while it is
held (log 3); the completion is a later step of HOST, also when PSTATE is already DONE (DEDUCED; log 5; safe). -/
def execStop (s : State) : Result :=
  inHostMode s (if s.pstate = .idle then .next s.answerOk else .next { s with hold := .hStop, resp := none })

/-- STOP, completion (R170). -/
def completeStop (s : State) : State := ({ releasePlayback s with hold := .none }).answerOk

end Sys2Proof.Machine
end

