-- ==== Sys2Proof/Machine/AnimationController.lean ====
section
/-! DEFINITION. AnimationController's commands: ASTEP, WAIT, ARUN (43_animation_controller.md). -/

namespace Sys2Proof.Machine

/-- The per-frame transition of (POS, DIR) (R191): a boundary hit flips the direction, any other frame moves. -/
def sweepNext (pos : BitVec 5) (dir : Dir) : BitVec 5 × Dir :=
  match dir with
  | .rising => if pos = Config.windowHigh then (pos, .falling) else (pos + 1, .rising)
  | .falling => if pos = Config.windowLow then (pos, .rising) else (pos - 1, .falling)

/-- The effect of a successful ASTEP (R191), which A_MUTATE shares (R202): move, and write the tracked value CODE(DIR') at
POS', boundary hits included. -/
def sweep (s : State) : Result :=
  let p := sweepNext s.pos s.dir
  storeEntry p.1.toNat (code p.2.bit) { s with pos := p.1, dir := p.2 }

/-- ASTEP (R191). -/
def execAstep (s : State) : Result := inHostMode s (whileOwned s (sweep s.answerOk))

/-- WAIT, issue (R195): arm the timing service and hold HOST; no answer is given while it is held (log 3). -/
def execWait (s : State) : Result := inHostMode s (.next { s with waiting := true, hold := .hWait, resp := none })

/-- WAIT, completion (R195). -/
def completeWait (s : State) : State := ({ s with hold := .none }).answerOk

/-- ARUN n (R198): hand the loop to the ANIMATOR. -/
def execArun (rpt : BitVec 16) (s : State) : Result :=
  inHostMode s (playbackChecks rpt s (.next ({ s with run := true, aphase := .aStart, arpt := rpt }.answerOk)))

end Sys2Proof.Machine
end

