-- ==== Sys2Proof/Machine/Csr.lean ====
section
/-! DEFINITION. The control and status register views RDCSR reads (10_state.md R34 to R41): 32-bit, read-only, unused bits
0. -/

namespace Sys2Proof.Machine

/-- CSR0 CFG (R35). -/
def csrCfg (s : State) : Word := (0#4 ++ s.pin ++ BitVec.ofBool s.load.bit ++ s.div ++ s.top).cast rfl

/-- CSR1 SEQ (R36). -/
def csrSeq (s : State) : Word := (0#8 ++ s.endDelay).cast rfl

/-- CSR2 STATUS (R37). -/
def csrStatus (s : State) : Word := (0#17 ++ BitVec.ofBool s.dout ++ s.cfgState.bits ++ BitVec.ofBool s.fOwn ++ BitVec.ofBool s.eIll ++ BitVec.ofBool s.eBusy ++
    BitVec.ofBool s.eCfg ++ BitVec.ofBool s.indly ++ BitVec.ofBool s.waiting ++ s.aphase.bits ++ BitVec.ofBool s.run ++
    BitVec.ofBool s.lent ++ s.pstate.bits).cast rfl

/-- CSR3 ANIM (R38). -/
def csrAnim (s : State) : Word := (s.arpt ++ 0#7 ++ BitVec.ofBool s.dir.bit ++ 0#3 ++ s.pos).cast rfl

/-- CSR4 CURSOR (R39). -/
def csrCursor (s : State) : Word := (s.passRem ++ 0#11 ++ s.idx).cast rfl

/-- CSR5 TICKCNT (R40). -/
def csrTick (s : State) : Word := (0#17 ++ s.tick).cast rfl

/-- CSR6 DLYCNT (R41). -/
def csrDelay (s : State) : Word := (0#8 ++ s.dly).cast rfl

/-- CSR[n] (R34); number 7 is reserved. -/
def csr (s : State) (n : Nat) : Option Word :=
  match n with
  | 0 => some (csrCfg s)
  | 1 => some (csrSeq s)
  | 2 => some (csrStatus s)
  | 3 => some (csrAnim s)
  | 4 => some (csrCursor s)
  | 5 => some (csrTick s)
  | 6 => some (csrDelay s)
  | _ => none

end Sys2Proof.Machine
end

