-- ==== Sys2Proof/Machine/BitEncoder.lean ====
section
/-! DEFINITION. BitEncoder and the buffer access commands: ENCODE, WRITE, READ, RDCSR (41_bit_encoder_and_buffer.md). An
index out of range is an illegal word, which the decoder refuses; the meanings raise ERR_ILLEGAL on it too, first of all
(R229, 20_memory.md R63; DEDUCED; log 7; safe). -/

namespace Sys2Proof.Machine

/-- ENCODE color (R133). -/
def execEncode (color : Color) (s : State) : Result :=
  inHostMode s (whileOwned s (.next ({ s with sb := encodeColor color }.answerOk)))

/-- WRITE idx, bit (R134). -/
def execWrite (idx : BitVec 5) (bit : Bool) (s : State) : Result :=
  if 24 ≤ idx.toNat then raise .illegal s
  else inHostMode s (whileOwned s (storeEntry idx.toNat (code bit) s.answerOk))

/-- READ idx (R135), allowed in every state. -/
def execRead (idx : BitVec 5) (s : State) : Result :=
  match readEntry s.sb idx.toNat with
  | some w => .next (s.answer .ok (w.setWidth 32))
  | none => raise .illegal s

/-- RDCSR n (R136), allowed in every state. -/
def execRdcsr (n : BitVec 3) (s : State) : Result :=
  match csr s n.toNat with
  | some v => .next (s.answer .ok v)
  | none => raise .illegal s

end Sys2Proof.Machine
end

