-- ==== Sys2Proof/Machine/TimingTable.lean ====
section
/-! DEFINITION. The duty words as PLAYER executes them: one tick of a symbol (42_sequence_player.md R176), the end delay
(R177), the end of a pass (R178); and the meanings of SYM0, SYM1, SYMR. -/

namespace Sys2Proof.Machine

/-- end_pass (R178): the next pass from entry 0, or DONE with the pin low after the last. -/
def endPass (s : State) : State :=
  let t := { s with indly := false, dly := 0, idx := 0, tick := 0 }
  if 1 < s.passRem.toNat then { t with passRem := s.passRem - 1 }
  else { t with passRem := 0, pstate := .done, dout := false }

/-- The cursor moves on by one tick of a symbol (R176). `TICK < TOP - 1` is read as TICK + 1 < TOP, so that TOP = 0, which
no state that plays has (R45 I5), makes every tick a last tick (DEDUCED; log 16; safe). -/
def advance (s : State) : State :=
  if s.tick.toNat + 1 < s.top.toNat then { s with tick := s.tick + 1 }
  else if s.idx.toNat < 24 then { s with tick := 0, idx := s.idx + 1 }
  else if 0 < s.endDelay.toNat then { s with tick := 0, indly := true, dly := s.endDelay }
  else endPass s

/-- PLAYER_TICK in a symbol whose duty word is `w` (R176): latch it, drive the pin, move the cursor. -/
def playWord (w : Duty) (s : State) : State := advance { s with cur := w, dout := level w s.tick.toNat }

/-- A duty word is executed exactly when PLAYER is in a symbol (R175, R176); in IDLE, in DONE and in the end delay PLAYER
reads no word, and nothing happens (DEDUCED; log 8; safe). -/
def playSymbol (w : Duty) (s : State) : Result :=
  if s.pstate = .playing ∧ s.indly = false then .next (playWord w s) else .next s

/-- PLAYER_TICK in the end delay (R177). -/
def delayTick (s : State) : State :=
  let t := { s with dout := false }
  if 1 < s.dly.toNat then { t with dly := s.dly - 1 } else endPass t

/-- The word PLAYER plays: the entry at the first tick of a symbol, the latch afterwards (R176, 20_memory.md R72). -/
def fetchDuty (s : State) : Option Duty := if s.tick = 0 then readEntry s.sb s.idx.toNat else some s.cur

/-- SYM0, one tick of the protocol "0" (R121, R176). -/
def execSym0 (s : State) : Result := playSymbol Config.code0 s

/-- SYM1, one tick of the protocol "1" (R121, R176). -/
def execSym1 (s : State) : Result := playSymbol Config.code1 s

/-- SYMR, one tick of the reset code (R121, R176). -/
def execSymr (s : State) : Result := playSymbol Config.codeR s

end Sys2Proof.Machine
end

