-- ==== Sys2Proof/Machine/Dispatch.lean ====
section
/-! DEFINITION. One arm for each instruction. -/

namespace Sys2Proof.Machine

/-- The meaning of an instruction. -/
def exec (i : Instr) (s : State) : Host.Outcome State Fault Refusal :=
  match i with
  -- SequencePlayer
  | .configure div top load pin => Sys2Proof.Machine.execConfigure div top load pin s
  | .setdelay delay => Sys2Proof.Machine.execSetdelay delay s
  -- BitEncoder
  | .encode color => Sys2Proof.Machine.execEncode color s
  | .write idx bit => Sys2Proof.Machine.execWrite idx bit s
  | .read idx => Sys2Proof.Machine.execRead idx s
  | .rdcsr n => Sys2Proof.Machine.execRdcsr n s
  -- SequencePlayer
  | .start rpt => Sys2Proof.Machine.execStart rpt s
  | .stop => Sys2Proof.Machine.execStop s
  -- AnimationController
  | .wait => Sys2Proof.Machine.execWait s
  | .astep => Sys2Proof.Machine.execAstep s
  | .arun rpt => Sys2Proof.Machine.execArun rpt s
  -- TimingTable
  | .sym0 => Sys2Proof.Machine.execSym0 s
  | .sym1 => Sys2Proof.Machine.execSym1 s
  | .symr => Sys2Proof.Machine.execSymr s

end Sys2Proof.Machine
end

