-- ==== Sys2Proof/Machine/Agents.lean ====
section
/-! DEFINITION. The agents' steps (00_scope.md R6), reset (70_reset_and_hazards.md R260), and whose turn it is. An agent whose
turn comes while none of its steps is enabled does nothing (DESIGN CHOICE; log 4; safe). -/

namespace Sys2Proof.Machine

/-- A command word is presented (R13, R108): its instruction runs; an illegal word raises ERR_ILLEGAL (R223). -/
def presentWord (w : Word) (s : State) : Result :=
  match decode (.cmd32 w) with
  | .ok i => exec i s
  | .error _ => raise .illegal s

/-- HOST's step (R170, R195, R13): complete the held command once its condition is true, or present the next command when
none is held. HOST with no command left has no step (log 2). -/
def hostStep (s : State) : Result :=
  match s.hold with
  | .hStop => if s.pstate = .done then .next (completeStop s) else .next s
  | .hWait => if s.waiting then .next s else .next (completeWait s)
  | .none =>
    match s.cmds with
    | [] => .next s
    | w :: rest => presentWord w { s with cmds := rest }

/-- PLAYER executes a duty word: its instruction, or for a word with no row the same tick (R92; DEDUCED; log 9; safe). -/
def playDuty (w : Duty) (s : State) : Result :=
  match decode (.duty16 w) with
  | .ok i => exec i s
  | .error _ => playSymbol w s

/-- PLAYER's step PLAYER_TICK (R175 to R177), enabled exactly when PSTATE = PLAYING. An entry number above 24 stops the
machine (log 6; safe). -/
def playerStep (s : State) : Result :=
  if s.pstate = .playing then
    if s.indly then .next (delayTick s)
    else
      match fetchDuty s with
      | some w => playDuty w s
      | none => .fault (.noSuchEntry s.idx.toNat)
  else .next s

/-- TIMER's step TIMER_EXPIRE (R196), enabled exactly when WAITING = 1; its effect is WAITING <- 0. -/
def timerStep (s : State) : State := { s with waiting := false }

/-- ANIMATOR's steps A_START, A_WAIT, A_STOP, A_MUTATE (R199 to R202), enabled only when RUN = 1. They answer nothing. -/
def animatorStep (s : State) : Result :=
  if s.run then
    match s.aphase with
    | .aStart => .next { beginPlayback s.arpt s with waiting := true, aphase := .aWait }
    | .aWait => if s.waiting then .next s else .next { s with aphase := .aStop }
    | .aStop => if s.pstate = .done then .next { releasePlayback s with aphase := .aMutate } else .next s
    | .aMutate => sweep { s with aphase := .aStart }
  else .next s

/-- The agent has an enabled step: HOST to complete the held command or to present its next word (R170, R195, R13), PLAYER
while PSTATE = PLAYING (R175), TIMER while WAITING = 1 (R196), ANIMATOR in RUN mode under its phase's condition (R199 to
R202). Reset may come at any time (R260). -/
def enabled (t : Turn) (s : State) : Bool :=
  match t with
  | .host =>
    match s.hold with
    | .hStop => decide (s.pstate = .done)
    | .hWait => !s.waiting
    | .none => !s.cmds.isEmpty
  | .player => decide (s.pstate = .playing)
  | .timer => s.waiting
  | .animator =>
    s.run &&
      match s.aphase with
      | .aStart | .aMutate => true
      | .aWait => !s.waiting
      | .aStop => decide (s.pstate = .done)
  | .reset => true

/-- The agent whose step lifts a hold: PLAYER that of STOP (R170), TIMER that of WAIT (R195). -/
def lifter : Hold → Option Turn
  | .none => none
  | .hStop => some .player
  | .hWait => some .timer

/-- Reset (R260): every element takes its value of R43, whatever the state before. The commands HOST has yet to present and
the decided turns lie outside the block and stay (DESIGN CHOICE; log 14; safe). -/
def resetStep (s : State) : State := { State.reset with cmds := s.cmds, sched := s.sched, turns := s.turns }

/-- The next turn and the state without it: the first decided turn, or a free one (log 1). -/
def takeTurn (s : State) : Turn × State :=
  match s.sched with
  | t :: rest => (t, { s with sched := rest })
  | [] => (Config.freeTurn s.turns, { s with turns := s.turns + 1 })

/-- The step of one turn. -/
def runTurn (t : Turn) (s : State) : Result :=
  match t with
  | .host => hostStep s
  | .player => playerStep s
  | .timer => .next (timerStep s)
  | .animator => animatorStep s
  | .reset => .next (resetStep s)

/-- HOST presents `w` in the next step. -/
def placeCommand (w : Word) (s : State) : State :=
  { s with sched := .host :: s.sched, cmds := w :: s.cmds, hold := .none }

/-- PLAYER plays `w` in the next step: a playback is in a symbol, and `w` stands where its fetch looks, in the entry at the
first tick of a symbol and in the latch afterwards; a cursor at an entry that does not exist goes to entry 0 (log 17). -/
def placeDuty (w : Duty) (s : State) : State :=
  let t := { s with sched := .player :: s.sched, pstate := .playing, indly := false }
  if s.tick = 0 then
    match writeEntry s.sb s.idx.toNat w with
    | some b => { t with sb := b }
    | none => { t with idx := 0, sb := s.sb.set 0 w }
  else { t with cur := w }

/-- The coded instruction placed where the next step fetches it. -/
def placeCode (c : Code) (s : State) : State :=
  match c with
  | .cmd32 w => placeCommand w s
  | .duty16 w => placeDuty w s

end Sys2Proof.Machine
end

