-- ==== Sys2Proof/Safety.lean ====
section
/-! DEFINITION. What counts as a good state and a good run: the invariants of 10_state.md R45, the bad states of
60_exceptions.md R233, the modes and phases of R204, R240 and R241, the runs and their weak fairness (R182, R230, R244,
R271), and the arithmetic of ticks (R126, R179, R181, R182). -/

namespace Sys2Proof.Machine

/-- The invariants of every reachable state (R45 with C10, R25, R27, R29). I3 holds by the types of PSTATE and CFG_STATE.
I10's "no write to SB has ever been performed while LENT = 1" is a property of a step, stated as such. -/
structure State.Inv (s : State) : Prop where
  /-- I1: the buffer invariant (R22). -/
  buffer : s.sb.wf = true
  /-- I2: the sweep position stays in the window. -/
  window : 16 ≤ s.pos.toNat ∧ s.pos.toNat ≤ 20
  /-- R25: bit 15 of TOP is always 0. -/
  topBit : s.top.toNat ≤ 32767
  /-- R25: what a valid configuration holds. -/
  config : s.cfgState = .valid → 1 ≤ s.top.toNat ∧ s.load = .common
  /-- I4. -/
  lentConfigured : s.pstate ≠ .idle → s.cfgState = .valid
  /-- I5. -/
  cursor : s.pstate = .playing → 1 ≤ s.passRem.toNat ∧ s.idx.toNat ≤ 24 ∧ s.tick.toNat < s.top.toNat ∧
    (s.indly = true → 1 ≤ s.dly.toNat ∧ s.dly.toNat ≤ s.endDelay.toNat ∧ s.idx = 24)
  /-- I6. -/
  quiet : s.pstate ≠ .playing → s.dout = false ∧ s.indly = false
  /-- R27, R170: outside a playback the cursor is at rest. -/
  rest : s.pstate ≠ .playing → s.passRem = 0 ∧ s.idx = 0 ∧ s.tick = 0 ∧ s.dly = 0
  /-- R29: inside a symbol the latch holds the entry being played. -/
  latch : s.pstate = .playing → s.indly = false → 0 < s.tick.toNat → readEntry s.sb s.idx.toNat = some s.cur
  /-- I7. -/
  running : s.run = true → s.cfgState = .valid ∧ 1 ≤ s.arpt.toNat ∧ s.hold = .none
  /-- I8, owned phases. -/
  phaseOwned : s.run = true → s.aphase = .aStart ∨ s.aphase = .aMutate → s.pstate = .idle
  /-- I8, lent phases. -/
  phaseLent : s.run = true → s.aphase = .aWait ∨ s.aphase = .aStop → s.pstate ≠ .idle
  /-- I9, the armed timer. -/
  armed : s.waiting = true → s.hold = .hWait ∨ (s.run = true ∧ s.aphase = .aWait)
  /-- I9, the held STOP. -/
  heldStop : s.hold = .hStop → s.pstate ≠ .idle ∧ s.run = false

/-- FAULTED: the ownership protocol was violated (R233). -/
def State.faulted (s : State) : Bool := s.fOwn

/-- ERRED: an error was reported that the source treats as fatal (R233). -/
def State.erred (s : State) : Bool := s.eCfg || s.eBusy || s.eIll

/-- CLEAN (R233). -/
def State.clean (s : State) : Bool := !s.faulted && !s.erred

/-- HOST is blocked in a STOP or a WAIT (R32, R233). -/
def State.hostHeld (s : State) : Bool := decide (s.hold ≠ .none)

/-- Stuck (R233): HOST is held by a command whose condition is false, and the agent that would lift the hold has no enabled
step (DEDUCED; log 18; safe). -/
def State.stuck (s : State) : Bool :=
  s.hostHeld && !enabled .host s && !(lifter s.hold).any fun t => enabled t s

/-- A run (R230, R44): an endless sequence of states, each the next state of a step of the one before. The turn each step
takes and the words HOST presents are inputs, which the world outside may set between two steps (log 13). -/
def Run (r : Nat → State) : Prop :=
  ∀ n, ∃ u, step (r n) = .next u ∧ r (n + 1) = { u with sched := (r (n + 1)).sched, cmds := (r (n + 1)).cmds }

/-- Weak fairness of an agent in a run (R182): if from some moment on it always has an enabled step, its turn comes. -/
def WeaklyFair (t : Turn) (r : Nat → State) : Prop :=
  ∀ k, (∀ n, k ≤ n → enabled t (r n) = true) → ∃ n, k ≤ n ∧ (takeTurn (r n)).1 = t

/-- The runs the model assumes (R244, R271): weakly fair to PLAYER, to TIMER and, since it has enabled steps in RUN mode alone,
to ANIMATOR. -/
structure FairRun (r : Nat → State) : Prop where
  run : Run r
  player : WeaklyFair .player r
  timer : WeaklyFair .timer r
  animator : WeaklyFair .animator r

/-- RUN mode: ANIMATOR owns the loop; else host mode (R241). -/
def State.runMode (s : State) : Bool := s.run

/-- "playing frame N" (R204): the buffer is lent. -/
def State.playingFrame (s : State) : Bool := s.lent

/-- "buffer being mutated between frames" (R204): the buffer is its owner's (R240 OWNED). -/
def State.betweenFrames (s : State) : Bool := !s.lent

/-- Ticks of one pass: 25 symbols and the end delay (R179). -/
def passTicks (top delay : Nat) : Nat := 25 * top + delay

/-- Ticks of a playback of n passes (R181). -/
def playbackTicks (top delay n : Nat) : Nat := n * passTicks top delay

/-- PLAYER_TICK steps a playback still has to make (R182), from its cursor. -/
def State.ticksLeft (s : State) : Nat :=
  (s.passRem.toNat - 1) * passTicks s.top.toNat s.endDelay.toNat +
    (if s.indly then s.dly.toNat
    else (25 - s.idx.toNat) * s.top.toNat - s.tick.toNat + s.endDelay.toNat)

/-- The reset requirement of the LED, (TOP + END_DELAY) x 2^DIV / F_BASE > 50 µs (R126), with 50 µs = 1/20000 s. The block
does not check it (R266). -/
def resetGapMet (top delay div : Nat) : Bool := decide (Config.fBase < (top + delay) * 2 ^ div * 20000)

/-- k PLAYER_TICK steps and the DOUT values they wrote, first one first; none if one of them stops the machine. -/
def playTicks : Nat → State → Option (List Bool × State)
  | 0, s => some ([], s)
  | k + 1, s =>
    match playerStep s with
    | .next t => (playTicks k t).map fun r => (t.dout :: r.1, r.2)
    | .fault _ => none
    | .refused _ => none

/-- The spec's state (R20): the state without the model's own fields. -/
def State.blockView (s : State) : State := { s with resp := none, cmds := [], sched := [], turns := 0 }

/-- What the loop of R197 acts on: the state without the issuer's own bookkeeping (RUN, APHASE, ARPT, HOLD, the answer) and
without the model's inputs. -/
def State.loopView (s : State) : State :=
  { s with run := false, aphase := .aStart, arpt := 0, hold := .none, resp := none, cmds := [], sched := [], turns := 0 }

end Sys2Proof.Machine
end

