-- ==== Sys2Proof/Certificates/Slice0/Obligations.lean ====
section
/-! DEFINITION. The statements about the model, one definition each. Words and answers are written out from the rules cited,
not taken from the definitions they speak of. -/

open Sys2Proof Sys2Proof.Machine

/-! Shorthand of the statements. -/

/-- The answer (OK, 0) (R96). -/
def Sys2Proof.Machine.okAnswer : Option Answer := some { status := .ok, data := 0 }

/-- The answer (E, 0) (R96). -/
def Sys2Proof.Machine.errAnswer (c : Cause) : Option Answer := some { status := .err c, data := 0 }

/-- The duty word of a protocol bit, in the numbers of R121. -/
def Sys2Proof.Machine.dutyNumber (b : Bool) : Duty := if b then 0x800D else 0x8007

/-- A command row of the opcode table: OP, mask, match, and the range constraint on the word (R97 to R108). -/
structure Sys2Proof.Machine.CommandRow where
  op : Nat
  mask : Word
  matchBits : Word
  range : Word → Bool

/-- The eleven command rows of opcode_table.json. -/
def Sys2Proof.Machine.commandTable : List CommandRow :=
  [{ op := 1, mask := 0xF0000000, matchBits := 0x10000000, range := fun _ => true },
   { op := 2, mask := 0xFF000000, matchBits := 0x20000000, range := fun _ => true },
   { op := 3, mask := 0xFF000000, matchBits := 0x30000000, range := fun _ => true },
   { op := 4, mask := 0xFFFFE0FE, matchBits := 0x40000000, range := fun w => decide ((field w 8 5).toNat ≤ 23) },
   { op := 5, mask := 0xFFFFFFE0, matchBits := 0x50000000, range := fun w => decide ((field w 0 5).toNat ≤ 24) },
   { op := 6, mask := 0xFFFFFFF8, matchBits := 0x60000000, range := fun w => decide ((field w 0 3).toNat ≤ 6) },
   { op := 7, mask := 0xFFFF0000, matchBits := 0x70000000, range := fun _ => true },
   { op := 8, mask := 0xFFFFFFFF, matchBits := 0x80000000, range := fun _ => true },
   { op := 9, mask := 0xFFFFFFFF, matchBits := 0x90000000, range := fun _ => true },
   { op := 10, mask := 0xFFFFFFFF, matchBits := 0xA0000000, range := fun _ => true },
   { op := 11, mask := 0xFFFF0000, matchBits := 0xB0000000, range := fun _ => true }]

/-- A word matches a row (R108). -/
def Sys2Proof.Machine.CommandRow.fits (r : CommandRow) (w : Word) : Bool :=
  decide (w &&& r.mask = r.matchBits) && r.range w

/-- The row of a command (R97 to R107); 0 for a duty word, which has no command row. -/
def Sys2Proof.Machine.rowOf : Instr → Nat
  | .configure .. => 1
  | .setdelay .. => 2
  | .encode .. => 3
  | .write .. => 4
  | .read .. => 5
  | .rdcsr .. => 6
  | .start .. => 7
  | .stop => 8
  | .wait => 9
  | .astep => 10
  | .arun .. => 11
  | .sym0 | .sym1 | .symr => 0

/-- The words R108 and R223 call illegal, spelled out: a reserved OP, a nonzero reserved bit of the operation, an index out
of range. -/
abbrev Sys2Proof.Machine.illegalWord (w : Word) : Prop :=
  (field w 28 4 = 0 ∨ 12 ≤ (field w 28 4).toNat) ∨
  ((field w 28 4 = 2 ∨ field w 28 4 = 3) ∧ field w 24 4 ≠ 0) ∨
  (field w 28 4 = 4 ∧ (field w 13 15 ≠ 0 ∨ field w 1 7 ≠ 0 ∨ 24 ≤ (field w 8 5).toNat)) ∨
  (field w 28 4 = 5 ∧ (field w 5 23 ≠ 0 ∨ 25 ≤ (field w 0 5).toNat)) ∨
  (field w 28 4 = 6 ∧ (field w 3 25 ≠ 0 ∨ field w 0 3 = 7)) ∨
  ((field w 28 4 = 7 ∨ field w 28 4 = 11) ∧ field w 16 12 ≠ 0) ∨
  ((field w 28 4 = 8 ∨ field w 28 4 = 9 ∨ field w 28 4 = 10) ∧ field w 0 28 ≠ 0)

/-! Encoding. -/

/-- One word of each row of the opcode table, written out from R91 and R97 to R107, decodes to the instruction it stands
for. A sanity statement. -/
def Obligations.WrittenWordsDecode : Prop :=
  decodeTableWord 32 0x10250014 = some (.configure 0 20 .common 37) ∧
  decodeTableWord 32 0x2000031F = some (.setdelay 799) ∧
  decodeTableWord 32 0x300000FF = some (.encode 0x0000FF) ∧
  decodeTableWord 32 0x40001701 = some (.write 23 true) ∧
  decodeTableWord 32 0x50000018 = some (.read 24) ∧
  decodeTableWord 32 0x60000006 = some (.rdcsr 6) ∧
  decodeTableWord 32 0x70000002 = some (.start 2) ∧
  decodeTableWord 32 0x80000000 = some .stop ∧
  decodeTableWord 32 0x90000000 = some .wait ∧
  decodeTableWord 32 0xA0000000 = some .astep ∧
  decodeTableWord 32 0xB000FFFF = some (.arun 65535) ∧
  decodeTableWord 16 0x8007 = some .sym0 ∧
  decodeTableWord 16 0x800D = some .sym1 ∧
  decodeTableWord 16 0x8000 = some .symr

/-- R95, R108: decoding the encoding of a well-formed instruction gives it back, with every operand at every value the
encoding admits. -/
def Obligations.DecodeOfEncodeIsTheInstruction : Prop :=
  ∀ i : Instr, i.wellFormed = true → decode (encode i) = .ok i

/-- R108, R110: a word that decodes is the one encoding of a well-formed instruction, so each word has one meaning and no bit
of a legal word is ignored. -/
def Obligations.DecodedWordIsItsOnlyEncoding : Prop :=
  ∀ (c : Code) (i : Instr), decode c = .ok i → i.wellFormed = true ∧ encode i = c

/-- R108: a command word decodes to the command of the opcode-table row whose mask and match it meets, its range constraint
included, and to nothing where there is none; at most one row fits a word. -/
def Obligations.CommandWordsDecodeByTheTable : Prop :=
  ∀ w : Word,
    (∀ n, (∃ i, decode (.cmd32 w) = .ok i ∧ rowOf i = n) ↔ ∃ r ∈ commandTable, r.op = n ∧ r.fits w = true) ∧
    (∀ r ∈ commandTable, ∀ q ∈ commandTable, r.fits w = true → q.fits w = true → r.op = q.op)

/-! Turns and steps. -/

/-- The model's own convention (log 1): a decided turn is taken first and used up; when none is left the turn is free. -/
def Obligations.TurnsAreTakenInOrder : Prop :=
  ∀ s : State,
    (∀ t rest, s.sched = t :: rest → takeTurn s = (t, { s with sched := rest })) ∧
    (s.sched = [] → takeTurn s = (Config.freeTurn s.turns, { s with turns := s.turns + 1 }))

/-- R13, R108: when HOST's turn comes, it is not held, and the next word it presents decodes to `i`, the step is `i` executed,
with that word taken off HOST's list and the turn used up. -/
def Obligations.StepRunsThePresentedCommand : Prop :=
  ∀ (s u : State) (w : Word) (rest : List Word) (i : Instr),
    takeTurn s = (.host, u) → s.hold = .none → s.cmds = w :: rest → decode (.cmd32 w) = .ok i →
      step s = exec i { u with cmds := rest }

/-- R176, R72: when PLAYER's turn comes in a symbol and the word it reads (the entry at the first tick, the latch afterwards)
decodes to `i`, the step is `i` executed, with the turn used up. -/
def Obligations.StepRunsTheFetchedDutyWord : Prop :=
  ∀ (s u : State) (w : Duty) (i : Instr),
    takeTurn s = (.player, u) → s.pstate = .playing → s.indly = false →
    (s.tick = 0 → readEntry s.sb s.idx.toNat = some w) → (s.tick ≠ 0 → s.cur = w) → decode (.duty16 w) = .ok i →
      step s = exec i u

/-- R223: a word that is illegal by R108, presented by HOST, raises ERR_ILLEGAL and records nothing but E_ILL. -/
def Obligations.IllegalWordRecordsOnlyEIll : Prop :=
  ∀ (s u : State) (w : Word) (rest : List Word),
    takeTurn s = (.host, u) → s.hold = .none → s.cmds = w :: rest → illegalWord w →
      step s = .next { u with cmds := rest, eIll := true, resp := errAnswer .illegal }

/-- The model's own convention (log 4): an agent whose turn comes with none of its steps enabled changes nothing. -/
def Obligations.DisabledTurnChangesNothing : Prop :=
  ∀ (s u : State) (t : Turn), takeTurn s = (t, u) →
    (t = .player ∧ s.pstate ≠ .playing) ∨
    (t = .timer ∧ s.waiting = false) ∨
    (t = .animator ∧ (s.run = false ∨ (s.aphase = .aWait ∧ s.waiting = true) ∨ (s.aphase = .aStop ∧ s.pstate ≠ .done))) ∨
    (t = .host ∧ ((s.hold = .hStop ∧ s.pstate ≠ .done) ∨ (s.hold = .hWait ∧ s.waiting = true) ∨
      (s.hold = .none ∧ s.cmds = []))) →
      step s = .next u

/-! Reset. -/

/-- R43: every element of the state has its reset value of the table. -/
def Obligations.ResetValuesAreTheTable : Prop :=
  (∀ i, i < 24 → readEntry State.reset.sb i = some 0x8007) ∧ readEntry State.reset.sb 24 = some 0x8000 ∧
  State.reset.cfgState = .unconfigured ∧ State.reset.div = 0 ∧ State.reset.top = 0 ∧ State.reset.load = .common ∧
  State.reset.pin = 0 ∧ State.reset.endDelay = 799 ∧ State.reset.pstate = .idle ∧ State.reset.passRem = 0 ∧
  State.reset.idx = 0 ∧ State.reset.tick = 0 ∧ State.reset.indly = false ∧ State.reset.dly = 0 ∧
  State.reset.cur = 0x8000 ∧ State.reset.dout = false ∧ State.reset.pos = 16 ∧ State.reset.dir = .rising ∧
  State.reset.run = false ∧ State.reset.aphase = .aStart ∧ State.reset.arpt = 0 ∧ State.reset.waiting = false ∧
  State.reset.hold = .none ∧ State.reset.eCfg = false ∧ State.reset.eBusy = false ∧ State.reset.eIll = false ∧
  State.reset.fOwn = false

/-- R260: a reset gives every element of the block its reset value, whatever the state before. -/
def Obligations.ResetRestoresEveryElement : Prop :=
  ∀ s u : State, takeTurn s = (.reset, u) → ∃ t, step s = .next t ∧ t.blockView = State.reset.blockView

/-! The causes (60_exceptions.md). -/

/-- R221: where ERR_CONFIG is raised, and that it records E_CFG alone, with CFG_STATE <- FAILED in the one case of a CONFIGURE
with bad arguments. In host mode; the checks of START and ARUN come before their ERR_BUSY (R229). -/
def Obligations.ConfigErrorRecordsOnlyECfg : Prop :=
  ∀ s : State, s.run = false →
    (∀ d t l p, s.cfgState ≠ .unconfigured →
      exec (.configure d t l p) s = .next { s with eCfg := true, resp := errAnswer .config }) ∧
    (∀ d t l p, s.cfgState = .unconfigured → cfgOk d t l = false →
      exec (.configure d t l p) s = .next { s with cfgState := .failed, eCfg := true, resp := errAnswer .config }) ∧
    (∀ n, s.cfgState ≠ .valid ∨ n = 0 →
      exec (.start n) s = .next { s with eCfg := true, resp := errAnswer .config } ∧
      exec (.arun n) s = .next { s with eCfg := true, resp := errAnswer .config })

/-- R222: where ERR_BUSY is raised, and that it records E_BUSY alone: START and ARUN outside IDLE, SETDELAY while lent, and in
RUN mode every command but READ and RDCSR. -/
def Obligations.BusyErrorRecordsOnlyEBusy : Prop :=
  ∀ s : State,
    (s.run = false → ∀ n, s.cfgState = .valid → n ≠ 0 → s.pstate ≠ .idle →
      exec (.start n) s = .next { s with eBusy := true, resp := errAnswer .busy } ∧
      exec (.arun n) s = .next { s with eBusy := true, resp := errAnswer .busy }) ∧
    (s.run = false → ∀ d, s.lent = true → exec (.setdelay d) s = .next { s with eBusy := true, resp := errAnswer .busy }) ∧
    (s.run = true → ∀ i : Instr, i.wellFormed = true → i.isCommand = true → i.onlyReads = false →
      exec i s = .next { s with eBusy := true, resp := errAnswer .busy })

/-- R225: ENCODE, WRITE and ASTEP raise FAULT_OWNERSHIP while the buffer is lent, in host mode; nothing but F_OWN is
recorded, so the write is not performed and POS and DIR stay. -/
def Obligations.OwnershipFaultRecordsOnlyFOwn : Prop :=
  ∀ s : State, s.run = false → s.lent = true →
    (∀ c, exec (.encode c) s = .next { s with fOwn := true, resp := errAnswer .ownership }) ∧
    (∀ i b, i.toNat ≤ 23 → exec (.write i b) s = .next { s with fOwn := true, resp := errAnswer .ownership }) ∧
    exec .astep s = .next { s with fOwn := true, resp := errAnswer .ownership }

/-- R229: the illegal operand comes first, whatever the mode and the lend; the RUN lock-out second, whatever the command's own
checks would say. -/
def Obligations.CommonChecksComeFirst : Prop :=
  ∀ (i : Instr) (s : State),
    (i.wellFormed = false → exec i s = .next { s with eIll := true, resp := errAnswer .illegal }) ∧
    (i.wellFormed = true → i.isCommand = true → i.onlyReads = false → s.run = true →
      exec i s = .next { s with eBusy := true, resp := errAnswer .busy })

/-! The commands. -/

/-- R151, R153: CONFIGURE from UNCONFIGURED in host mode with good arguments loads the four registers and becomes VALID, and
changes nothing else but the answer; CFG_OK at its default. -/
def Obligations.ConfigureLoadsTheRegisters : Prop :=
  ∀ (s : State) (d : BitVec 3) (t : BitVec 16) (l : Load) (p : BitVec 8), s.run = false → s.cfgState = .unconfigured →
    1 ≤ t.toNat → t.toNat ≤ 32767 → l = .common →
      exec (.configure d t l p) s =
        .next { s with div := d, top := t, load := l, pin := p, cfgState := .valid, resp := okAnswer }

/-- R153: the default of CFG_OK. -/
def Obligations.CfgOkIsTheDefault : Prop :=
  ∀ (d : BitVec 3) (t : BitVec 16) (l : Load), cfgOk d t l = true ↔ (1 ≤ t.toNat ∧ t.toNat ≤ 32767 ∧ l = .common)

/-- R155: SETDELAY loads END_DELAY while the buffer is not lent, and changes nothing else but the answer; while it is lent it
raises ERR_BUSY. In host mode. -/
def Obligations.SetdelayLoadsEndDelay : Prop :=
  ∀ (s : State) (d : BitVec 24), s.run = false →
    (s.lent = false → exec (.setdelay d) s = .next { s with endDelay := d, resp := okAnswer }) ∧
    (s.lent = true → exec (.setdelay d) s = .next { s with eBusy := true, resp := errAnswer .busy })

/-- R133, R131: ENCODE writes CODE of color bit 23 - i into entry i and CODER into entry 24 while the buffer is not lent, and
changes nothing else but the answer (so no other element of the state); while it is lent it raises FAULT_OWNERSHIP and writes
no entry. In host mode. -/
def Obligations.EncodeWritesTheColor : Prop :=
  ∀ (s : State) (c : Color), s.run = false →
    (s.lent = false → ∃ t, exec (.encode c) s = .next t ∧
      (∀ i, i < 24 → readEntry t.sb i = some (dutyNumber (c.getLsbD (23 - i)))) ∧ readEntry t.sb 24 = some 0x8000 ∧
      t = { s with sb := t.sb, resp := okAnswer }) ∧
    (s.lent = true → exec (.encode c) s = .next { s with fOwn := true, resp := errAnswer .ownership })

/-- R134: WRITE writes CODE(BIT) into entry IDX while the buffer is not lent; every other entry reads as before and nothing
else changes but the answer; while it is lent it raises FAULT_OWNERSHIP. An index above 23 raises ERR_ILLEGAL in every state.
The first two in host mode. -/
def Obligations.WritePatchesOneEntry : Prop :=
  ∀ (s : State) (i : BitVec 5) (b : Bool),
    (s.run = false → i.toNat ≤ 23 → s.lent = false → ∃ t, exec (.write i b) s = .next t ∧
      readEntry t.sb i.toNat = some (dutyNumber b) ∧
      (∀ j, j ≠ i.toNat → readEntry t.sb j = readEntry s.sb j) ∧
      t = { s with sb := t.sb, resp := okAnswer }) ∧
    (s.run = false → i.toNat ≤ 23 → s.lent = true →
      exec (.write i b) s = .next { s with fOwn := true, resp := errAnswer .ownership }) ∧
    (24 ≤ i.toNat → exec (.write i b) s = .next { s with eIll := true, resp := errAnswer .illegal })

/-- R135: READ answers the entry in every state, in RUN mode and while lent too, and changes nothing else; with the buffer
invariant the data is CODER for entry 24 and CODE0 or CODE1 for every other; an index above 24 raises ERR_ILLEGAL. -/
def Obligations.ReadAnswersTheEntry : Prop :=
  ∀ (s : State) (i : BitVec 5),
    (i.toNat ≤ 24 → ∃ w, readEntry s.sb i.toNat = some w ∧
      exec (.read i) s = .next { s with resp := some { status := .ok, data := BitVec.ofNat 32 w.toNat } } ∧
      (s.sb.wf = true → (i = 24 → w = 0x8000) ∧ (i ≠ 24 → w = 0x8007 ∨ w = 0x800D))) ∧
    (25 ≤ i.toNat → exec (.read i) s = .next { s with eIll := true, resp := errAnswer .illegal })

/-- R136 with R35, R36, R39 to R41: RDCSR 0, 1, 4, 5, 6 answer in every state the view of that register, field by field, and
change nothing else; RDCSR 7 raises ERR_ILLEGAL. -/
def Obligations.RdcsrAnswersConfigAndCursorViews : Prop :=
  ∀ s : State,
    (∃ v : Word, exec (.rdcsr 0) s = .next { s with resp := some { status := .ok, data := v } } ∧
      field v 0 16 = s.top ∧ field v 16 3 = s.div ∧ (v.getLsbD 19 = true ↔ s.load = .perChannel) ∧ field v 20 8 = s.pin ∧
      field v 28 4 = 0) ∧
    (∃ v : Word, exec (.rdcsr 1) s = .next { s with resp := some { status := .ok, data := v } } ∧
      field v 0 24 = s.endDelay ∧ field v 24 8 = 0) ∧
    (∃ v : Word, exec (.rdcsr 4) s = .next { s with resp := some { status := .ok, data := v } } ∧
      field v 0 5 = s.idx ∧ field v 5 11 = 0 ∧ field v 16 16 = s.passRem) ∧
    (∃ v : Word, exec (.rdcsr 5) s = .next { s with resp := some { status := .ok, data := v } } ∧
      field v 0 15 = s.tick ∧ field v 15 17 = 0) ∧
    (∃ v : Word, exec (.rdcsr 6) s = .next { s with resp := some { status := .ok, data := v } } ∧
      field v 0 24 = s.dly ∧ field v 24 8 = 0) ∧
    exec (.rdcsr 7) s = .next { s with eIll := true, resp := errAnswer .illegal }

/-- R136 with R37, R38, R28: RDCSR 2 and 3 answer in every state the status and the animation view, field by field, and
change nothing else. -/
def Obligations.RdcsrAnswersStatusAndAnimationViews : Prop :=
  ∀ s : State,
    (∃ v : Word, exec (.rdcsr 2) s = .next { s with resp := some { status := .ok, data := v } } ∧
      ((field v 0 2 = 0 ↔ s.pstate = .idle) ∧ (field v 0 2 = 1 ↔ s.pstate = .playing) ∧ (field v 0 2 = 2 ↔ s.pstate = .done)) ∧
      (v.getLsbD 2 = true ↔ s.pstate ≠ .idle) ∧ v.getLsbD 3 = s.run ∧
      ((field v 4 2 = 0 ↔ s.aphase = .aStart) ∧ (field v 4 2 = 1 ↔ s.aphase = .aWait) ∧
        (field v 4 2 = 2 ↔ s.aphase = .aStop) ∧ (field v 4 2 = 3 ↔ s.aphase = .aMutate)) ∧
      v.getLsbD 6 = s.waiting ∧ v.getLsbD 7 = s.indly ∧ v.getLsbD 8 = s.eCfg ∧ v.getLsbD 9 = s.eBusy ∧
      v.getLsbD 10 = s.eIll ∧ v.getLsbD 11 = s.fOwn ∧
      ((field v 12 2 = 0 ↔ s.cfgState = .unconfigured) ∧ (field v 12 2 = 1 ↔ s.cfgState = .valid) ∧
        (field v 12 2 = 2 ↔ s.cfgState = .failed)) ∧
      v.getLsbD 14 = s.dout ∧ field v 15 17 = 0) ∧
    (∃ v : Word, exec (.rdcsr 3) s = .next { s with resp := some { status := .ok, data := v } } ∧
      field v 0 5 = s.pos ∧ field v 5 3 = 0 ∧ (v.getLsbD 8 = true ↔ s.dir = .falling) ∧ field v 9 7 = 0 ∧
      field v 16 16 = s.arpt)

/-- R35 to R41: the views' reset values. -/
def Obligations.ViewsHaveTheirResetValues : Prop :=
  csr State.reset 0 = some 0x00000000 ∧ csr State.reset 1 = some 0x0000031F ∧ csr State.reset 2 = some 0x00000000 ∧
  csr State.reset 3 = some 0x00000010 ∧ csr State.reset 4 = some 0x00000000 ∧ csr State.reset 5 = some 0x00000000 ∧
  csr State.reset 6 = some 0x00000000

/-- R160: START in host mode: ERR_CONFIG if not VALID or REPEAT = 0, then ERR_BUSY outside IDLE, else the cursor stands at
entry 0, tick 0 of the first of REPEAT passes and PSTATE is PLAYING; nothing else changes but the answer. -/
def Obligations.StartBeginsThePlayback : Prop :=
  ∀ (s : State) (n : BitVec 16), s.run = false →
    (s.cfgState ≠ .valid ∨ n = 0 → exec (.start n) s = .next { s with eCfg := true, resp := errAnswer .config }) ∧
    (s.cfgState = .valid → n ≠ 0 → s.pstate ≠ .idle →
      exec (.start n) s = .next { s with eBusy := true, resp := errAnswer .busy }) ∧
    (s.cfgState = .valid → n ≠ 0 → s.pstate = .idle →
      exec (.start n) s = .next { s with
        pstate := .playing, passRem := n, idx := 0, tick := 0, indly := false, dly := 0, resp := okAnswer })

/-- R170, R171: STOP in host mode answers OK at once and changes nothing when PSTATE = IDLE, else it holds HOST; HOST held in
STOP completes it when PSTATE = DONE, which releases the lend, and has no step while PSTATE = PLAYING. Nothing else changes
(the answer port while HOST is held is the model's own, log 3). -/
def Obligations.StopHoldsUntilDoneAndReleases : Prop :=
  ∀ s : State,
    (s.run = false → s.pstate = .idle → exec .stop s = .next { s with resp := okAnswer }) ∧
    (s.run = false → s.pstate ≠ .idle → ∃ t, exec .stop s = .next t ∧ t = { s with hold := .hStop, resp := t.resp }) ∧
    (∀ u, takeTurn s = (.host, u) → s.hold = .hStop → s.pstate = .done →
      step s = .next { u with pstate := .idle, hold := .none, resp := okAnswer }) ∧
    (∀ u, takeTurn s = (.host, u) → s.hold = .hStop → s.pstate = .playing → step s = .next u)

/-- R195, R196: WAIT in host mode arms the timer and holds HOST; TIMER_EXPIRE, enabled when WAITING = 1, clears WAITING alone;
HOST held in WAIT completes it with OK when WAITING = 0 and has no step while WAITING = 1. Nothing else changes, whatever
PSTATE is (the answer port while HOST is held is the model's own, log 3). -/
def Obligations.WaitHoldsUntilTheTimerExpires : Prop :=
  ∀ s : State,
    (s.run = false → ∃ t, exec .wait s = .next t ∧ t = { s with waiting := true, hold := .hWait, resp := t.resp }) ∧
    (∀ u, takeTurn s = (.timer, u) → s.waiting = true → step s = .next { u with waiting := false }) ∧
    (∀ u, takeTurn s = (.host, u) → s.hold = .hWait → s.waiting = false →
      step s = .next { u with hold := .none, resp := okAnswer }) ∧
    (∀ u, takeTurn s = (.host, u) → s.hold = .hWait → s.waiting = true → step s = .next u)

/-- R191: ASTEP in host mode while the buffer is not lent: the four transitions of (POS, DIR), and one write of CODE(DIR') at
POS', every other entry read as before and nothing else changed but the answer; while the buffer is lent it raises
FAULT_OWNERSHIP and changes neither POS, DIR nor the buffer. With POS in the window, invariant I2. -/
def Obligations.AstepMovesAndWritesOneEntry : Prop :=
  ∀ s : State, s.run = false →
    (s.lent = true → exec .astep s = .next { s with fOwn := true, resp := errAnswer .ownership }) ∧
    (s.lent = false → 16 ≤ s.pos.toNat → s.pos.toNat ≤ 20 → ∃ t, exec .astep s = .next t ∧
      (s.dir = .rising → s.pos = 20 → t.pos = 20 ∧ t.dir = .falling) ∧
      (s.dir = .rising → s.pos ≠ 20 → t.pos.toNat = s.pos.toNat + 1 ∧ t.dir = .rising) ∧
      (s.dir = .falling → s.pos = 16 → t.pos = 16 ∧ t.dir = .rising) ∧
      (s.dir = .falling → s.pos ≠ 16 → t.pos.toNat + 1 = s.pos.toNat ∧ t.dir = .falling) ∧
      readEntry t.sb t.pos.toNat = some (dutyNumber (decide (t.dir = .falling))) ∧
      (∀ j, j ≠ t.pos.toNat → readEntry t.sb j = readEntry s.sb j) ∧
      t = { s with pos := t.pos, dir := t.dir, sb := t.sb, resp := okAnswer })

/-- R198: ARUN in host mode: ERR_CONFIG if not VALID or REPEAT = 0, then ERR_BUSY outside IDLE, else RUN mode begins at
A_START with the repeat count kept; nothing else changes but the answer. -/
def Obligations.ArunEntersRunMode : Prop :=
  ∀ (s : State) (n : BitVec 16), s.run = false →
    (s.cfgState ≠ .valid ∨ n = 0 → exec (.arun n) s = .next { s with eCfg := true, resp := errAnswer .config }) ∧
    (s.cfgState = .valid → n ≠ 0 → s.pstate ≠ .idle →
      exec (.arun n) s = .next { s with eBusy := true, resp := errAnswer .busy }) ∧
    (s.cfgState = .valid → n ≠ 0 → s.pstate = .idle →
      exec (.arun n) s = .next { s with run := true, aphase := .aStart, arpt := n, resp := okAnswer })

/-! PLAYER. -/

/-- R124, R125: the level of a duty word in tick t, both polarities; the waveform of a symbol has one level for each tick, and
in the reference configuration the three canonical words give 7 high and 13 low, 13 high and 7 low, and 20 low. -/
def Obligations.LevelIsThePulseShape : Prop :=
  (∀ (w : Duty) (t : Nat),
    (w.getLsbD 15 = true → (level w t = true ↔ t < (field w 0 15).toNat)) ∧
    (w.getLsbD 15 = false → (level w t = false ↔ t < (field w 0 15).toNat))) ∧
  (∀ (w : Duty) (n : Nat), (sym w n).length = n ∧ ∀ t, t < n → (sym w n)[t]? = some (level w t)) ∧
  sym 0x8007 20 = List.replicate 7 true ++ List.replicate 13 false ∧
  sym 0x800D 20 = List.replicate 13 true ++ List.replicate 7 false ∧
  sym 0x8000 20 = List.replicate 20 false

/-- R176, R178, R121, R124: SYM0, SYM1 and SYMR executed in a symbol complete, whatever the state: the word is latched, DOUT is
its level at TICK, and the cursor makes exactly one of its moves; nothing else changes. The end of the last pass puts the
pin low. With TOP at least 1 and IDX at most 24, invariant I5. -/
def Obligations.DutyWordsPlayOneTick : Prop :=
  ∀ (s : State) (i : Instr) (w : Duty) (d : Nat), s.pstate = .playing → s.indly = false → 1 ≤ s.top.toNat →
    s.idx.toNat ≤ 24 →
    (i = .sym0 ∧ w = 0x8007 ∧ d = 7) ∨ (i = .sym1 ∧ w = 0x800D ∧ d = 13) ∨ (i = .symr ∧ w = 0x8000 ∧ d = 0) →
    (s.tick.toNat + 1 < s.top.toNat →
      exec i s = .next { s with cur := w, dout := decide (s.tick.toNat < d), tick := s.tick + 1 }) ∧
    (s.top.toNat ≤ s.tick.toNat + 1 → s.idx.toNat < 24 →
      exec i s = .next { s with cur := w, dout := decide (s.tick.toNat < d), tick := 0, idx := s.idx + 1 }) ∧
    (s.top.toNat ≤ s.tick.toNat + 1 → s.idx = 24 → s.endDelay ≠ 0 →
      exec i s = .next { s with
        cur := w, dout := decide (s.tick.toNat < d), tick := 0, indly := true, dly := s.endDelay }) ∧
    (s.top.toNat ≤ s.tick.toNat + 1 → s.idx = 24 → s.endDelay = 0 → 1 < s.passRem.toNat →
      exec i s = .next { s with
        cur := w, dout := decide (s.tick.toNat < d), tick := 0, idx := 0, indly := false, dly := 0,
        passRem := s.passRem - 1 }) ∧
    (s.top.toNat ≤ s.tick.toNat + 1 → s.idx = 24 → s.endDelay = 0 → s.passRem.toNat ≤ 1 →
      exec i s = .next { s with
        cur := w, dout := false, tick := 0, idx := 0, indly := false, dly := 0, passRem := 0, pstate := .done })

/-- The model's own convention (log 8): a duty word executed when PLAYER is not in a symbol, which no step does, changes
nothing. -/
def Obligations.DutyWordsOutsideASymbolDoNothing : Prop :=
  ∀ (s : State) (i : Instr), i.isCommand = false → ¬(s.pstate = .playing ∧ s.indly = false) → exec i s = .next s

/-- R176, R178: PLAYER_TICK in a symbol, for whatever word it reads, rows of the table or not: the fetch, the latch, the pin
level and the cursor's move. With TOP at least 1 and IDX at most 24, invariant I5. -/
def Obligations.PlayerTickInASymbol : Prop :=
  ∀ (s u : State) (w : Duty), takeTurn s = (.player, u) → s.pstate = .playing → s.indly = false → 1 ≤ s.top.toNat →
    s.idx.toNat ≤ 24 → (s.tick = 0 → readEntry s.sb s.idx.toNat = some w) → (s.tick ≠ 0 → s.cur = w) →
    (s.tick.toNat + 1 < s.top.toNat →
      step s = .next { u with cur := w, dout := level w s.tick.toNat, tick := s.tick + 1 }) ∧
    (s.top.toNat ≤ s.tick.toNat + 1 → s.idx.toNat < 24 →
      step s = .next { u with cur := w, dout := level w s.tick.toNat, tick := 0, idx := s.idx + 1 }) ∧
    (s.top.toNat ≤ s.tick.toNat + 1 → s.idx = 24 → s.endDelay ≠ 0 →
      step s = .next { u with cur := w, dout := level w s.tick.toNat, tick := 0, indly := true, dly := s.endDelay }) ∧
    (s.top.toNat ≤ s.tick.toNat + 1 → s.idx = 24 → s.endDelay = 0 → 1 < s.passRem.toNat →
      step s = .next { u with
        cur := w, dout := level w s.tick.toNat, tick := 0, idx := 0, indly := false, dly := 0,
        passRem := s.passRem - 1 }) ∧
    (s.top.toNat ≤ s.tick.toNat + 1 → s.idx = 24 → s.endDelay = 0 → s.passRem.toNat ≤ 1 →
      step s = .next { u with
        cur := w, dout := false, tick := 0, idx := 0, indly := false, dly := 0, passRem := 0, pstate := .done })

/-- R177, R178: PLAYER_TICK in the end delay: the pin low, DLY counted down, and at its end the next pass or DONE. -/
def Obligations.PlayerTickInTheEndDelay : Prop :=
  ∀ s u : State, takeTurn s = (.player, u) → s.pstate = .playing → s.indly = true →
    (1 < s.dly.toNat → step s = .next { u with dout := false, dly := s.dly - 1 }) ∧
    (s.dly.toNat ≤ 1 → 1 < s.passRem.toNat →
      step s = .next { u with
        dout := false, indly := false, dly := 0, idx := 0, tick := 0, passRem := s.passRem - 1 }) ∧
    (s.dly.toNat ≤ 1 → s.passRem.toNat ≤ 1 →
      step s = .next { u with
        dout := false, indly := false, dly := 0, idx := 0, tick := 0, passRem := 0, pstate := .done })

/-- R182: a PLAYER_TICK takes exactly one tick off what the playback has left, and the last one leads to DONE. -/
def Obligations.PlayerTickCountsThePlaybackDown : Prop :=
  ∀ s u : State, s.Inv → s.pstate = .playing → takeTurn s = (.player, u) →
    ∃ t, step s = .next t ∧ ((t.pstate = .playing ∧ t.ticksLeft + 1 = s.ticksLeft) ∨ (t.pstate = .done ∧ s.ticksLeft = 1))

/-- R182: no other agent's step ends a playback, disables PLAYER_TICK or changes what the playback has left. -/
def Obligations.OtherAgentsCannotDisturbThePlayback : Prop :=
  ∀ s t : State, s.Inv → s.pstate = .playing → (takeTurn s).1 ≠ .player → (takeTurn s).1 ≠ .reset → step s = .next t →
    t.pstate = .playing ∧ t.ticksLeft = s.ticksLeft ∧ t.idx = s.idx ∧ t.tick = s.tick ∧ t.cur = s.cur ∧ t.dout = s.dout ∧
    t.indly = s.indly ∧ t.dly = s.dly ∧ t.passRem = s.passRem ∧ t.top = s.top ∧ t.endDelay = s.endDelay ∧ t.sb = s.sb

/-- R182: from any playing state that meets the invariants, the stated number of PLAYER_TICK steps, and no fewer, leads to
DONE. -/
def Obligations.PlaybackEndsAfterItsTicks : Prop :=
  ∀ s : State, s.Inv → s.pstate = .playing →
    (∃ l t, playTicks s.ticksLeft s = some (l, t) ∧ t.pstate = .done) ∧
    ∀ k, k < s.ticksLeft → ∃ l t, playTicks k s = some (l, t) ∧ t.pstate = .playing

/-- R179: after a successful START n, the PLAYER_TICK steps of the playback write exactly the waveform W(s, TOP, END_DELAY, n)
to the pin, then PSTATE = DONE; the pin is low before the first and after the last. -/
def Obligations.PlaybackEmitsItsWaveform : Prop :=
  ∀ (s : State) (n : BitVec 16), s.Inv → s.run = false → s.cfgState = .valid → s.pstate = .idle → n ≠ 0 →
    ∃ u t, exec (.start n) s = .next u ∧ u.dout = false ∧
      playTicks (n.toNat * (25 * s.top.toNat + s.endDelay.toNat)) u =
        some (waveform s.sb s.top.toNat s.endDelay.toNat n.toNat, t) ∧
      t.pstate = .done ∧ t.dout = false

/-! The color word and the sweep. -/

/-- R132: decode and encode are inverse: on every color word, and on every buffer of the buffer invariant, whose color bit
23 - i is BITOF of entry i. -/
def Obligations.ColorAndBufferRoundTrip : Prop :=
  (∀ c : Color, decodeBuffer (encodeColor c) = some c) ∧
  (∀ b : Buffer, b.wf = true → ∃ d, decodeBuffer b = some d ∧ encodeColor d = b ∧
    ∀ i, i < 24 → ∃ w, readEntry b i = some w ∧ bitOf w = some (d.getLsbD (23 - i)))

/-- R137 P4: WRITE i, b replaces color bit 23 - i of the buffer's color and keeps every other. -/
def Obligations.WriteReplacesOneColorBit : Prop :=
  ∀ (s : State) (i : BitVec 5) (b : Bool) (d : Color), s.run = false → s.lent = false → i.toNat ≤ 23 →
    decodeBuffer s.sb = some d →
      ∃ t e, exec (.write i b) s = .next t ∧ decodeBuffer t.sb = some e ∧ e.getLsbD (23 - i.toNat) = b ∧
        ∀ k, k ≠ 23 - i.toNat → e.getLsbD k = d.getLsbD k

/-- R192 S1 to S3, S6: in the window the sweep stays in the window, flips the direction exactly at the boundary in the
direction of travel and stands still there, and comes back to where it was after 10 frames. -/
def Obligations.SweepIsBoundedAndPeriodic : Prop :=
  ∀ (p : BitVec 5) (d : Dir), 16 ≤ p.toNat → p.toNat ≤ 20 →
    (16 ≤ (sweepNext p d).1.toNat ∧ (sweepNext p d).1.toNat ≤ 20) ∧
    ((sweepNext p d).2 ≠ d ↔ (d = .rising ∧ p = 20) ∨ (d = .falling ∧ p = 16)) ∧
    ((sweepNext p d).1 = p ↔ (sweepNext p d).2 ≠ d) ∧
    (fun q : BitVec 5 × Dir => sweepNext q.1 q.2)^[10] (p, d) = (p, d)

/-! ANIMATOR. -/

/-- R199 to R202: the ANIMATOR's four steps in RUN mode, each with its condition, and that A_STOP has no step while
PSTATE = PLAYING, where the turn changes nothing by the model's own convention (log 4). Nothing else changes. A_MUTATE with
POS in the window, invariant I2. -/
def Obligations.AnimatorTakesItsFourSteps : Prop :=
  ∀ s u : State, takeTurn s = (.animator, u) → s.run = true →
    (s.aphase = .aStart → step s = .next { u with
      pstate := .playing, passRem := s.arpt, idx := 0, tick := 0, indly := false, dly := 0, waiting := true,
      aphase := .aWait }) ∧
    (s.aphase = .aWait → s.waiting = false → step s = .next { u with aphase := .aStop }) ∧
    (s.aphase = .aStop → s.pstate = .done → step s = .next { u with pstate := .idle, aphase := .aMutate }) ∧
    (s.aphase = .aStop → s.pstate = .playing → step s = .next u) ∧
    (s.aphase = .aMutate → 16 ≤ s.pos.toNat → s.pos.toNat ≤ 20 → ∃ t, step s = .next t ∧
      (t.pos, t.dir) = sweepNext s.pos s.dir ∧
      readEntry t.sb t.pos.toNat = some (dutyNumber (decide (t.dir = .falling))) ∧
      (∀ j, j ≠ t.pos.toNat → readEntry t.sb j = readEntry s.sb j) ∧
      t = { u with pos := t.pos, dir := t.dir, sb := t.sb, aphase := .aStart })

/-- R203, R197: each ANIMATOR step has the effect of the commands of FRAME n it stands for, issued in host mode: A_START that
of START and the issue of WAIT, A_WAIT that of WAIT's completion, A_STOP that of STOP issued and completed, A_MUTATE that of
ASTEP; on everything but the issuer's own bookkeeping. -/
def Obligations.RunModeLoopIsTheHostLoop : Prop :=
  ∀ s : State, s.Inv → s.run = true →
    (s.aphase = .aStart → ∃ t u v, animatorStep s = .next t ∧ exec (.start s.arpt) { s with run := false } = .next u ∧
      u.resp = okAnswer ∧ exec .wait u = .next v ∧ t.loopView = v.loopView) ∧
    (s.aphase = .aWait → s.waiting = false → ∃ t v, animatorStep s = .next t ∧
      hostStep { s with run := false, hold := .hWait } = .next v ∧ v.resp = okAnswer ∧ t.loopView = v.loopView) ∧
    (s.aphase = .aStop → s.pstate = .done → ∃ t u v, animatorStep s = .next t ∧ exec .stop { s with run := false } = .next u ∧
      hostStep u = .next v ∧ v.resp = okAnswer ∧ t.loopView = v.loopView) ∧
    (s.aphase = .aMutate → ∃ t v, animatorStep s = .next t ∧ exec .astep { s with run := false } = .next v ∧
      v.resp = okAnswer ∧ t.loopView = v.loopView)

/-! Rules of the whole machine. -/

/-- R45: the invariants hold after reset. -/
def Obligations.ResetMeetsTheInvariants : Prop := State.reset.Inv

/-- R45: every step of every agent, reset included, keeps the invariants, from every state that meets them. -/
def Obligations.EveryStepKeepsTheInvariants : Prop :=
  ∀ s t : State, s.Inv → step s = .next t → t.Inv

/-- R45, R108, R92: from every state that meets the invariants, every step answers a next state: the machine never stops. -/
def Obligations.TheMachineNeverStops : Prop :=
  ∀ s : State, s.Inv → ∃ t, step s = .next t

/-- R45 I10, R69: no step but a reset changes the buffer while it is lent. -/
def Obligations.NoMutationWhileLent : Prop :=
  ∀ s t : State, s.Inv → s.lent = true → (takeTurn s).1 ≠ .reset → step s = .next t → t.sb = s.sb

/-- R240: the buffer becomes lent only by a START or A_START, and its owner's again only by the completion of STOP or A_STOP,
with PSTATE = DONE, or by a reset. -/
def Obligations.LendBeginsByStartAndEndsByStop : Prop :=
  ∀ s t : State, step s = .next t →
    (s.lent = false → t.lent = true →
      ((takeTurn s).1 = .host ∧ s.hold = .none ∧ ∃ w rest n, s.cmds = w :: rest ∧ decode (.cmd32 w) = .ok (.start n)) ∨
      ((takeTurn s).1 = .animator ∧ s.run = true ∧ s.aphase = .aStart)) ∧
    (s.lent = true → t.lent = false →
      ((takeTurn s).1 = .host ∧ s.hold = .hStop ∧ s.pstate = .done) ∨
      ((takeTurn s).1 = .animator ∧ s.run = true ∧ s.aphase = .aStop ∧ s.pstate = .done) ∨ (takeTurn s).1 = .reset)

/-- R33, R231: a sticky flag that is set stays set in every step but a reset. -/
def Obligations.StickyFlagsStaySet : Prop :=
  ∀ s t : State, (takeTurn s).1 ≠ .reset → step s = .next t → ∀ c : Cause, s.flag c = true → t.flag c = true

/-- R152: once CFG_STATE is VALID or FAILED, no step but a reset changes it or the registers CONFIGURE loads. -/
def Obligations.ConfigurationIsPermanent : Prop :=
  ∀ s t : State, s.cfgState ≠ .unconfigured → (takeTurn s).1 ≠ .reset → step s = .next t →
    t.cfgState = s.cfgState ∧ t.div = s.div ∧ t.top = s.top ∧ t.load = s.load ∧ t.pin = s.pin

/-- R152, R232: from CFG_STATE = FAILED with nothing playing, no step but a reset starts a playback or enters RUN mode. -/
def Obligations.FailedConfigurationPlaysNothing : Prop :=
  ∀ s t : State, s.Inv → s.cfgState = .failed → (takeTurn s).1 ≠ .reset → step s = .next t →
    t.pstate = .idle ∧ t.run = false ∧ t.dout = false

/-- R31, R241: RUN mode is left only by a reset, and its repeat count stays. -/
def Obligations.RunModeIsLeftOnlyByReset : Prop :=
  ∀ s t : State, s.run = true → (takeTurn s).1 ≠ .reset → step s = .next t → t.run = true ∧ t.arpt = s.arpt

/-- R203, R241: in RUN mode HOST's step changes nothing but the two flags E_BUSY and E_ILL, its answer and its own list of
commands: the loop cannot be disturbed. -/
def Obligations.HostCannotDisturbTheLoop : Prop :=
  ∀ s u t : State, s.Inv → s.run = true → takeTurn s = (.host, u) → step s = .next t →
    t = { u with eBusy := t.eBusy, eIll := t.eIll, resp := t.resp, cmds := t.cmds }

/-- R203: the ANIMATOR raises nothing: its steps leave the four sticky flags and the answer as they were. -/
def Obligations.AnimatorRaisesNothing : Prop :=
  ∀ s u t : State, s.Inv → takeTurn s = (.animator, u) → step s = .next t →
    t.eCfg = s.eCfg ∧ t.eBusy = s.eBusy ∧ t.eIll = s.eIll ∧ t.fOwn = s.fOwn ∧ t.resp = s.resp

/-- R233: a block that is CLEAN becomes FAULTED or ERRED only when a command HOST presents is answered with an error, FAULTED
with FAULT_OWNERSHIP and ERRED with one of the other three; the playback goes on and the buffer is not corrupted. -/
def Obligations.BadStatesComeFromAnsweredErrors : Prop :=
  ∀ s t : State, step s = .next t → s.clean = true → t.clean = false →
    (takeTurn s).1 = .host ∧ s.hold = .none ∧ s.cmds ≠ [] ∧
    ∃ c : Cause, t.resp = errAnswer c ∧ (t.faulted = true ↔ c = .ownership) ∧ (t.erred = true ↔ c ≠ .ownership) ∧
      t.sb = s.sb ∧ t.pstate = s.pstate

/-- R233: in a state that meets the invariants a held HOST is not stuck: either its condition is true, so its completion is
enabled, or the agent that lifts the hold has an enabled step, PLAYER for STOP and TIMER for WAIT. -/
def Obligations.HeldHostIsNeverStuck : Prop :=
  ∀ s : State, s.Inv → s.stuck = false ∧
    (s.hold = .hStop → enabled .host s = true ∨ enabled .player s = true) ∧
    (s.hold = .hWait → enabled .host s = true ∨ enabled .timer s = true)

/-! Runs. A reset, which may come at any time, ends what each statement follows; the premise is an invariant at the start. -/

/-- R182, R71: in a run that is weakly fair to PLAYER every playback reaches DONE, unless a reset comes first. -/
def Obligations.EveryPlaybackEndsInFairRuns : Prop :=
  ∀ (r : Nat → State) (k : Nat), Run r → WeaklyFair .player r → (r 0).Inv → (r k).pstate = .playing →
    ∃ n, k ≤ n ∧ ((takeTurn (r n)).1 = .reset ∨ (r n).pstate = .done)

/-- R182, R71, R196, R233: in a run that is weakly fair to PLAYER a held STOP's condition becomes true, in one that is weakly
fair to TIMER a held WAIT's does, unless a reset comes first; and every STOP and every WAIT completes with OK where HOST, too,
takes its turn if its completion stays enabled (a premise of this statement, log 13). -/
def Obligations.HeldCommandsCompleteInFairRuns : Prop :=
  ∀ (r : Nat → State) (k : Nat), Run r → (r 0).Inv →
    (WeaklyFair .player r → (r k).hold = .hStop →
      ∃ n, k ≤ n ∧ ((takeTurn (r n)).1 = .reset ∨ ((r n).hold = .hStop ∧ (r n).pstate = .done))) ∧
    (WeaklyFair .timer r → (r k).hold = .hWait →
      ∃ n, k ≤ n ∧ ((takeTurn (r n)).1 = .reset ∨ ((r n).hold = .hWait ∧ (r n).waiting = false))) ∧
    (WeaklyFair .player r → WeaklyFair .timer r → WeaklyFair .host r → (r k).hold ≠ .none →
      ∃ n, k ≤ n ∧ ((takeTurn (r n)).1 = .reset ∨
        ((takeTurn (r n)).1 = .host ∧ (r n).hold = (r k).hold ∧ (r (n + 1)).hold = .none ∧ (r (n + 1)).resp = okAnswer ∧
          ((r k).hold = .hStop → (r n).pstate = .done ∧ (r (n + 1)).pstate = .idle))))

/-- R244, R198, R203: in a fair run RUN mode has no terminal state: the ANIMATOR comes to each of its four phases again and
again, unless a reset comes first. -/
def Obligations.RunModeLoopGoesOnInFairRuns : Prop :=
  ∀ (r : Nat → State) (k : Nat), FairRun r → (r 0).Inv → (r k).run = true → ∀ p : APhase,
    ∃ n, k ≤ n ∧ ((takeTurn (r n)).1 = .reset ∨ ((r n).run = true ∧ (r n).aphase = p))
end

