-- ==== Sys2Proof/Laws/State.lean ====
section
/-! SUPPORT. The named updates of the state, one lemma for each field, so that no proof unfolds a record update. -/

namespace Sys2Proof.Machine

/-! setFlag changes only the sticky flag of its cause. -/

@[simp] theorem setFlag_sb (s : State) (c : Cause) : (s.setFlag c).sb = s.sb := by cases c <;> rfl
@[simp] theorem setFlag_cfgState (s : State) (c : Cause) : (s.setFlag c).cfgState = s.cfgState := by cases c <;> rfl
@[simp] theorem setFlag_div (s : State) (c : Cause) : (s.setFlag c).div = s.div := by cases c <;> rfl
@[simp] theorem setFlag_top (s : State) (c : Cause) : (s.setFlag c).top = s.top := by cases c <;> rfl
@[simp] theorem setFlag_load (s : State) (c : Cause) : (s.setFlag c).load = s.load := by cases c <;> rfl
@[simp] theorem setFlag_pin (s : State) (c : Cause) : (s.setFlag c).pin = s.pin := by cases c <;> rfl
@[simp] theorem setFlag_endDelay (s : State) (c : Cause) : (s.setFlag c).endDelay = s.endDelay := by cases c <;> rfl
@[simp] theorem setFlag_pstate (s : State) (c : Cause) : (s.setFlag c).pstate = s.pstate := by cases c <;> rfl
@[simp] theorem setFlag_passRem (s : State) (c : Cause) : (s.setFlag c).passRem = s.passRem := by cases c <;> rfl
@[simp] theorem setFlag_idx (s : State) (c : Cause) : (s.setFlag c).idx = s.idx := by cases c <;> rfl
@[simp] theorem setFlag_tick (s : State) (c : Cause) : (s.setFlag c).tick = s.tick := by cases c <;> rfl
@[simp] theorem setFlag_indly (s : State) (c : Cause) : (s.setFlag c).indly = s.indly := by cases c <;> rfl
@[simp] theorem setFlag_dly (s : State) (c : Cause) : (s.setFlag c).dly = s.dly := by cases c <;> rfl
@[simp] theorem setFlag_cur (s : State) (c : Cause) : (s.setFlag c).cur = s.cur := by cases c <;> rfl
@[simp] theorem setFlag_dout (s : State) (c : Cause) : (s.setFlag c).dout = s.dout := by cases c <;> rfl
@[simp] theorem setFlag_pos (s : State) (c : Cause) : (s.setFlag c).pos = s.pos := by cases c <;> rfl
@[simp] theorem setFlag_dir (s : State) (c : Cause) : (s.setFlag c).dir = s.dir := by cases c <;> rfl
@[simp] theorem setFlag_run (s : State) (c : Cause) : (s.setFlag c).run = s.run := by cases c <;> rfl
@[simp] theorem setFlag_aphase (s : State) (c : Cause) : (s.setFlag c).aphase = s.aphase := by cases c <;> rfl
@[simp] theorem setFlag_arpt (s : State) (c : Cause) : (s.setFlag c).arpt = s.arpt := by cases c <;> rfl
@[simp] theorem setFlag_waiting (s : State) (c : Cause) : (s.setFlag c).waiting = s.waiting := by cases c <;> rfl
@[simp] theorem setFlag_hold (s : State) (c : Cause) : (s.setFlag c).hold = s.hold := by cases c <;> rfl
@[simp] theorem setFlag_eCfg (s : State) (c : Cause) : (s.setFlag c).eCfg = (s.eCfg || decide (c = .config)) := by
  cases c <;> simp [State.setFlag]
@[simp] theorem setFlag_eBusy (s : State) (c : Cause) : (s.setFlag c).eBusy = (s.eBusy || decide (c = .busy)) := by
  cases c <;> simp [State.setFlag]
@[simp] theorem setFlag_eIll (s : State) (c : Cause) : (s.setFlag c).eIll = (s.eIll || decide (c = .illegal)) := by
  cases c <;> simp [State.setFlag]
@[simp] theorem setFlag_fOwn (s : State) (c : Cause) : (s.setFlag c).fOwn = (s.fOwn || decide (c = .ownership)) := by
  cases c <;> simp [State.setFlag]
@[simp] theorem setFlag_resp (s : State) (c : Cause) : (s.setFlag c).resp = s.resp := by cases c <;> rfl
@[simp] theorem setFlag_cmds (s : State) (c : Cause) : (s.setFlag c).cmds = s.cmds := by cases c <;> rfl
@[simp] theorem setFlag_sched (s : State) (c : Cause) : (s.setFlag c).sched = s.sched := by cases c <;> rfl
@[simp] theorem setFlag_turns (s : State) (c : Cause) : (s.setFlag c).turns = s.turns := by cases c <;> rfl

/-! answer changes only the answer port. -/

@[simp] theorem answer_sb (s : State) (st : Status) (d : Word) : (s.answer st d).sb = s.sb := rfl
@[simp] theorem answer_cfgState (s : State) (st : Status) (d : Word) : (s.answer st d).cfgState = s.cfgState := rfl
@[simp] theorem answer_div (s : State) (st : Status) (d : Word) : (s.answer st d).div = s.div := rfl
@[simp] theorem answer_top (s : State) (st : Status) (d : Word) : (s.answer st d).top = s.top := rfl
@[simp] theorem answer_load (s : State) (st : Status) (d : Word) : (s.answer st d).load = s.load := rfl
@[simp] theorem answer_pin (s : State) (st : Status) (d : Word) : (s.answer st d).pin = s.pin := rfl
@[simp] theorem answer_endDelay (s : State) (st : Status) (d : Word) : (s.answer st d).endDelay = s.endDelay := rfl
@[simp] theorem answer_pstate (s : State) (st : Status) (d : Word) : (s.answer st d).pstate = s.pstate := rfl
@[simp] theorem answer_passRem (s : State) (st : Status) (d : Word) : (s.answer st d).passRem = s.passRem := rfl
@[simp] theorem answer_idx (s : State) (st : Status) (d : Word) : (s.answer st d).idx = s.idx := rfl
@[simp] theorem answer_tick (s : State) (st : Status) (d : Word) : (s.answer st d).tick = s.tick := rfl
@[simp] theorem answer_indly (s : State) (st : Status) (d : Word) : (s.answer st d).indly = s.indly := rfl
@[simp] theorem answer_dly (s : State) (st : Status) (d : Word) : (s.answer st d).dly = s.dly := rfl
@[simp] theorem answer_cur (s : State) (st : Status) (d : Word) : (s.answer st d).cur = s.cur := rfl
@[simp] theorem answer_dout (s : State) (st : Status) (d : Word) : (s.answer st d).dout = s.dout := rfl
@[simp] theorem answer_pos (s : State) (st : Status) (d : Word) : (s.answer st d).pos = s.pos := rfl
@[simp] theorem answer_dir (s : State) (st : Status) (d : Word) : (s.answer st d).dir = s.dir := rfl
@[simp] theorem answer_run (s : State) (st : Status) (d : Word) : (s.answer st d).run = s.run := rfl
@[simp] theorem answer_aphase (s : State) (st : Status) (d : Word) : (s.answer st d).aphase = s.aphase := rfl
@[simp] theorem answer_arpt (s : State) (st : Status) (d : Word) : (s.answer st d).arpt = s.arpt := rfl
@[simp] theorem answer_waiting (s : State) (st : Status) (d : Word) : (s.answer st d).waiting = s.waiting := rfl
@[simp] theorem answer_hold (s : State) (st : Status) (d : Word) : (s.answer st d).hold = s.hold := rfl
@[simp] theorem answer_eCfg (s : State) (st : Status) (d : Word) : (s.answer st d).eCfg = s.eCfg := rfl
@[simp] theorem answer_eBusy (s : State) (st : Status) (d : Word) : (s.answer st d).eBusy = s.eBusy := rfl
@[simp] theorem answer_eIll (s : State) (st : Status) (d : Word) : (s.answer st d).eIll = s.eIll := rfl
@[simp] theorem answer_fOwn (s : State) (st : Status) (d : Word) : (s.answer st d).fOwn = s.fOwn := rfl
@[simp] theorem answer_resp (s : State) (st : Status) (d : Word) : (s.answer st d).resp = some { status := st, data := d } := rfl
@[simp] theorem answer_cmds (s : State) (st : Status) (d : Word) : (s.answer st d).cmds = s.cmds := rfl
@[simp] theorem answer_sched (s : State) (st : Status) (d : Word) : (s.answer st d).sched = s.sched := rfl
@[simp] theorem answer_turns (s : State) (st : Status) (d : Word) : (s.answer st d).turns = s.turns := rfl

/-! answerOk changes only the answer port. -/

@[simp] theorem answerOk_sb (s : State) : s.answerOk.sb = s.sb := rfl
@[simp] theorem answerOk_cfgState (s : State) : s.answerOk.cfgState = s.cfgState := rfl
@[simp] theorem answerOk_div (s : State) : s.answerOk.div = s.div := rfl
@[simp] theorem answerOk_top (s : State) : s.answerOk.top = s.top := rfl
@[simp] theorem answerOk_load (s : State) : s.answerOk.load = s.load := rfl
@[simp] theorem answerOk_pin (s : State) : s.answerOk.pin = s.pin := rfl
@[simp] theorem answerOk_endDelay (s : State) : s.answerOk.endDelay = s.endDelay := rfl
@[simp] theorem answerOk_pstate (s : State) : s.answerOk.pstate = s.pstate := rfl
@[simp] theorem answerOk_passRem (s : State) : s.answerOk.passRem = s.passRem := rfl
@[simp] theorem answerOk_idx (s : State) : s.answerOk.idx = s.idx := rfl
@[simp] theorem answerOk_tick (s : State) : s.answerOk.tick = s.tick := rfl
@[simp] theorem answerOk_indly (s : State) : s.answerOk.indly = s.indly := rfl
@[simp] theorem answerOk_dly (s : State) : s.answerOk.dly = s.dly := rfl
@[simp] theorem answerOk_cur (s : State) : s.answerOk.cur = s.cur := rfl
@[simp] theorem answerOk_dout (s : State) : s.answerOk.dout = s.dout := rfl
@[simp] theorem answerOk_pos (s : State) : s.answerOk.pos = s.pos := rfl
@[simp] theorem answerOk_dir (s : State) : s.answerOk.dir = s.dir := rfl
@[simp] theorem answerOk_run (s : State) : s.answerOk.run = s.run := rfl
@[simp] theorem answerOk_aphase (s : State) : s.answerOk.aphase = s.aphase := rfl
@[simp] theorem answerOk_arpt (s : State) : s.answerOk.arpt = s.arpt := rfl
@[simp] theorem answerOk_waiting (s : State) : s.answerOk.waiting = s.waiting := rfl
@[simp] theorem answerOk_hold (s : State) : s.answerOk.hold = s.hold := rfl
@[simp] theorem answerOk_eCfg (s : State) : s.answerOk.eCfg = s.eCfg := rfl
@[simp] theorem answerOk_eBusy (s : State) : s.answerOk.eBusy = s.eBusy := rfl
@[simp] theorem answerOk_eIll (s : State) : s.answerOk.eIll = s.eIll := rfl
@[simp] theorem answerOk_fOwn (s : State) : s.answerOk.fOwn = s.fOwn := rfl
@[simp] theorem answerOk_resp (s : State) : s.answerOk.resp = some { status := .ok, data := 0 } := rfl
@[simp] theorem answerOk_cmds (s : State) : s.answerOk.cmds = s.cmds := rfl
@[simp] theorem answerOk_sched (s : State) : s.answerOk.sched = s.sched := rfl
@[simp] theorem answerOk_turns (s : State) : s.answerOk.turns = s.turns := rfl

/-! beginPlayback changes only the playback cursor (R160). -/

@[simp] theorem beginPlayback_sb (n : BitVec 16) (s : State) : (beginPlayback n s).sb = s.sb := rfl
@[simp] theorem beginPlayback_cfgState (n : BitVec 16) (s : State) : (beginPlayback n s).cfgState = s.cfgState := rfl
@[simp] theorem beginPlayback_div (n : BitVec 16) (s : State) : (beginPlayback n s).div = s.div := rfl
@[simp] theorem beginPlayback_top (n : BitVec 16) (s : State) : (beginPlayback n s).top = s.top := rfl
@[simp] theorem beginPlayback_load (n : BitVec 16) (s : State) : (beginPlayback n s).load = s.load := rfl
@[simp] theorem beginPlayback_pin (n : BitVec 16) (s : State) : (beginPlayback n s).pin = s.pin := rfl
@[simp] theorem beginPlayback_endDelay (n : BitVec 16) (s : State) : (beginPlayback n s).endDelay = s.endDelay := rfl
@[simp] theorem beginPlayback_pstate (n : BitVec 16) (s : State) : (beginPlayback n s).pstate = .playing := rfl
@[simp] theorem beginPlayback_passRem (n : BitVec 16) (s : State) : (beginPlayback n s).passRem = n := rfl
@[simp] theorem beginPlayback_idx (n : BitVec 16) (s : State) : (beginPlayback n s).idx = 0 := rfl
@[simp] theorem beginPlayback_tick (n : BitVec 16) (s : State) : (beginPlayback n s).tick = 0 := rfl
@[simp] theorem beginPlayback_indly (n : BitVec 16) (s : State) : (beginPlayback n s).indly = false := rfl
@[simp] theorem beginPlayback_dly (n : BitVec 16) (s : State) : (beginPlayback n s).dly = 0 := rfl
@[simp] theorem beginPlayback_cur (n : BitVec 16) (s : State) : (beginPlayback n s).cur = s.cur := rfl
@[simp] theorem beginPlayback_dout (n : BitVec 16) (s : State) : (beginPlayback n s).dout = s.dout := rfl
@[simp] theorem beginPlayback_pos (n : BitVec 16) (s : State) : (beginPlayback n s).pos = s.pos := rfl
@[simp] theorem beginPlayback_dir (n : BitVec 16) (s : State) : (beginPlayback n s).dir = s.dir := rfl
@[simp] theorem beginPlayback_run (n : BitVec 16) (s : State) : (beginPlayback n s).run = s.run := rfl
@[simp] theorem beginPlayback_aphase (n : BitVec 16) (s : State) : (beginPlayback n s).aphase = s.aphase := rfl
@[simp] theorem beginPlayback_arpt (n : BitVec 16) (s : State) : (beginPlayback n s).arpt = s.arpt := rfl
@[simp] theorem beginPlayback_waiting (n : BitVec 16) (s : State) : (beginPlayback n s).waiting = s.waiting := rfl
@[simp] theorem beginPlayback_hold (n : BitVec 16) (s : State) : (beginPlayback n s).hold = s.hold := rfl
@[simp] theorem beginPlayback_eCfg (n : BitVec 16) (s : State) : (beginPlayback n s).eCfg = s.eCfg := rfl
@[simp] theorem beginPlayback_eBusy (n : BitVec 16) (s : State) : (beginPlayback n s).eBusy = s.eBusy := rfl
@[simp] theorem beginPlayback_eIll (n : BitVec 16) (s : State) : (beginPlayback n s).eIll = s.eIll := rfl
@[simp] theorem beginPlayback_fOwn (n : BitVec 16) (s : State) : (beginPlayback n s).fOwn = s.fOwn := rfl
@[simp] theorem beginPlayback_resp (n : BitVec 16) (s : State) : (beginPlayback n s).resp = s.resp := rfl
@[simp] theorem beginPlayback_cmds (n : BitVec 16) (s : State) : (beginPlayback n s).cmds = s.cmds := rfl
@[simp] theorem beginPlayback_sched (n : BitVec 16) (s : State) : (beginPlayback n s).sched = s.sched := rfl
@[simp] theorem beginPlayback_turns (n : BitVec 16) (s : State) : (beginPlayback n s).turns = s.turns := rfl

/-! releasePlayback changes only PSTATE (R170). -/

@[simp] theorem releasePlayback_sb (s : State) : (releasePlayback s).sb = s.sb := rfl
@[simp] theorem releasePlayback_cfgState (s : State) : (releasePlayback s).cfgState = s.cfgState := rfl
@[simp] theorem releasePlayback_div (s : State) : (releasePlayback s).div = s.div := rfl
@[simp] theorem releasePlayback_top (s : State) : (releasePlayback s).top = s.top := rfl
@[simp] theorem releasePlayback_load (s : State) : (releasePlayback s).load = s.load := rfl
@[simp] theorem releasePlayback_pin (s : State) : (releasePlayback s).pin = s.pin := rfl
@[simp] theorem releasePlayback_endDelay (s : State) : (releasePlayback s).endDelay = s.endDelay := rfl
@[simp] theorem releasePlayback_pstate (s : State) : (releasePlayback s).pstate = .idle := rfl
@[simp] theorem releasePlayback_passRem (s : State) : (releasePlayback s).passRem = s.passRem := rfl
@[simp] theorem releasePlayback_idx (s : State) : (releasePlayback s).idx = s.idx := rfl
@[simp] theorem releasePlayback_tick (s : State) : (releasePlayback s).tick = s.tick := rfl
@[simp] theorem releasePlayback_indly (s : State) : (releasePlayback s).indly = s.indly := rfl
@[simp] theorem releasePlayback_dly (s : State) : (releasePlayback s).dly = s.dly := rfl
@[simp] theorem releasePlayback_cur (s : State) : (releasePlayback s).cur = s.cur := rfl
@[simp] theorem releasePlayback_dout (s : State) : (releasePlayback s).dout = s.dout := rfl
@[simp] theorem releasePlayback_pos (s : State) : (releasePlayback s).pos = s.pos := rfl
@[simp] theorem releasePlayback_dir (s : State) : (releasePlayback s).dir = s.dir := rfl
@[simp] theorem releasePlayback_run (s : State) : (releasePlayback s).run = s.run := rfl
@[simp] theorem releasePlayback_aphase (s : State) : (releasePlayback s).aphase = s.aphase := rfl
@[simp] theorem releasePlayback_arpt (s : State) : (releasePlayback s).arpt = s.arpt := rfl
@[simp] theorem releasePlayback_waiting (s : State) : (releasePlayback s).waiting = s.waiting := rfl
@[simp] theorem releasePlayback_hold (s : State) : (releasePlayback s).hold = s.hold := rfl
@[simp] theorem releasePlayback_eCfg (s : State) : (releasePlayback s).eCfg = s.eCfg := rfl
@[simp] theorem releasePlayback_eBusy (s : State) : (releasePlayback s).eBusy = s.eBusy := rfl
@[simp] theorem releasePlayback_eIll (s : State) : (releasePlayback s).eIll = s.eIll := rfl
@[simp] theorem releasePlayback_fOwn (s : State) : (releasePlayback s).fOwn = s.fOwn := rfl
@[simp] theorem releasePlayback_resp (s : State) : (releasePlayback s).resp = s.resp := rfl
@[simp] theorem releasePlayback_cmds (s : State) : (releasePlayback s).cmds = s.cmds := rfl
@[simp] theorem releasePlayback_sched (s : State) : (releasePlayback s).sched = s.sched := rfl
@[simp] theorem releasePlayback_turns (s : State) : (releasePlayback s).turns = s.turns := rfl

/-! TIMER_EXPIRE changes only WAITING (R196). -/

@[simp] theorem timerStep_sb (s : State) : (timerStep s).sb = s.sb := rfl
@[simp] theorem timerStep_cfgState (s : State) : (timerStep s).cfgState = s.cfgState := rfl
@[simp] theorem timerStep_div (s : State) : (timerStep s).div = s.div := rfl
@[simp] theorem timerStep_top (s : State) : (timerStep s).top = s.top := rfl
@[simp] theorem timerStep_load (s : State) : (timerStep s).load = s.load := rfl
@[simp] theorem timerStep_pin (s : State) : (timerStep s).pin = s.pin := rfl
@[simp] theorem timerStep_endDelay (s : State) : (timerStep s).endDelay = s.endDelay := rfl
@[simp] theorem timerStep_pstate (s : State) : (timerStep s).pstate = s.pstate := rfl
@[simp] theorem timerStep_passRem (s : State) : (timerStep s).passRem = s.passRem := rfl
@[simp] theorem timerStep_idx (s : State) : (timerStep s).idx = s.idx := rfl
@[simp] theorem timerStep_tick (s : State) : (timerStep s).tick = s.tick := rfl
@[simp] theorem timerStep_indly (s : State) : (timerStep s).indly = s.indly := rfl
@[simp] theorem timerStep_dly (s : State) : (timerStep s).dly = s.dly := rfl
@[simp] theorem timerStep_cur (s : State) : (timerStep s).cur = s.cur := rfl
@[simp] theorem timerStep_dout (s : State) : (timerStep s).dout = s.dout := rfl
@[simp] theorem timerStep_pos (s : State) : (timerStep s).pos = s.pos := rfl
@[simp] theorem timerStep_dir (s : State) : (timerStep s).dir = s.dir := rfl
@[simp] theorem timerStep_run (s : State) : (timerStep s).run = s.run := rfl
@[simp] theorem timerStep_aphase (s : State) : (timerStep s).aphase = s.aphase := rfl
@[simp] theorem timerStep_arpt (s : State) : (timerStep s).arpt = s.arpt := rfl
@[simp] theorem timerStep_waiting (s : State) : (timerStep s).waiting = false := rfl
@[simp] theorem timerStep_hold (s : State) : (timerStep s).hold = s.hold := rfl
@[simp] theorem timerStep_eCfg (s : State) : (timerStep s).eCfg = s.eCfg := rfl
@[simp] theorem timerStep_eBusy (s : State) : (timerStep s).eBusy = s.eBusy := rfl
@[simp] theorem timerStep_eIll (s : State) : (timerStep s).eIll = s.eIll := rfl
@[simp] theorem timerStep_fOwn (s : State) : (timerStep s).fOwn = s.fOwn := rfl
@[simp] theorem timerStep_resp (s : State) : (timerStep s).resp = s.resp := rfl
@[simp] theorem timerStep_cmds (s : State) : (timerStep s).cmds = s.cmds := rfl
@[simp] theorem timerStep_sched (s : State) : (timerStep s).sched = s.sched := rfl
@[simp] theorem timerStep_turns (s : State) : (timerStep s).turns = s.turns := rfl

/-! LENT follows PSTATE (R28). -/

@[simp] theorem setFlag_lent (s : State) (c : Cause) : (s.setFlag c).lent = s.lent := by simp [State.lent]
@[simp] theorem answer_lent (s : State) (st : Status) (d : Word) : (s.answer st d).lent = s.lent := rfl
@[simp] theorem answerOk_lent (s : State) : s.answerOk.lent = s.lent := rfl
@[simp] theorem beginPlayback_lent (n : BitVec 16) (s : State) : (beginPlayback n s).lent = true := rfl
@[simp] theorem releasePlayback_lent (s : State) : (releasePlayback s).lent = false := rfl

/-- LENT is 1 exactly outside IDLE (R28). -/
theorem lent_iff (s : State) : s.lent = true ↔ s.pstate ≠ .idle := by simp [State.lent]

/-- LENT is 0 exactly in IDLE (R28). -/
theorem not_lent_iff (s : State) : s.lent = false ↔ s.pstate = .idle := by simp [State.lent]

end Sys2Proof.Machine
end

