-- ==== Sys2Proof/Laws/Ops.lean ====
section
/-! SUPPORT. What each shared operation can do, once for each: the checks, the buffer accesses, the color and duty words, the
playback cursor and the sweep. -/

namespace Sys2Proof.Machine

/-! The checks (R229). -/

theorem raise_eq (c : Cause) (s : State) : raise c s = .next ((s.setFlag c).answer (.err c) 0) := rfl

@[simp] theorem raise_ne_fault (c : Cause) (s : State) (f : Fault) : raise c s ≠ .fault f := by simp [raise_eq]

@[simp] theorem raise_ne_refused (c : Cause) (s : State) (r : Refusal) : raise c s ≠ .refused r := by simp [raise_eq]

@[simp] theorem inHostMode_host {s : State} (k : Result) (h : s.run = false) : inHostMode s k = k := by
  simp [inHostMode, h]

@[simp] theorem inHostMode_run {s : State} (k : Result) (h : s.run = true) : inHostMode s k = raise .busy s := by
  simp [inHostMode, h]

/-- The RUN lock-out either raises ERR_BUSY or lets the command go on. -/
theorem inHostMode_cases (s : State) (k : Result) :
    (s.run = true ∧ inHostMode s k = raise .busy s) ∨ (s.run = false ∧ inHostMode s k = k) := by
  cases h : s.run <;> simp [inHostMode, h]

@[simp] theorem whileOwned_owned {s : State} (k : Result) (h : s.lent = false) : whileOwned s k = k := by
  simp [whileOwned, h]

@[simp] theorem whileOwned_lent {s : State} (k : Result) (h : s.lent = true) : whileOwned s k = raise .ownership s := by
  simp [whileOwned, h]

/-- The ownership check either raises FAULT_OWNERSHIP or lets the command go on. -/
theorem whileOwned_cases (s : State) (k : Result) :
    (s.lent = true ∧ whileOwned s k = raise .ownership s) ∨ (s.lent = false ∧ whileOwned s k = k) := by
  cases h : s.lent <;> simp [whileOwned, h]

/-- The checks of START and ARUN in their order (R160, R229). -/
theorem playbackChecks_cases (n : BitVec 16) (s : State) (k : Result) :
    ((s.cfgState ≠ .valid ∨ n = 0) ∧ playbackChecks n s k = raise .config s) ∨
    (s.cfgState = .valid ∧ n ≠ 0 ∧ s.pstate ≠ .idle ∧ playbackChecks n s k = raise .busy s) ∨
    (s.cfgState = .valid ∧ n ≠ 0 ∧ s.pstate = .idle ∧ playbackChecks n s k = k) := by
  unfold playbackChecks
  split
  · exact .inl ⟨.inl ‹_›, rfl⟩
  · split
    · exact .inl ⟨.inr ‹_›, rfl⟩
    · split <;> simp_all

/-! The sequence buffer (R60, R66). -/

theorem readEntry_eq_some {b : Buffer} {i : Nat} {w : Duty} :
    readEntry b i = some w ↔ ∃ h : i < Config.nent, b[i] = w := by
  simp [readEntry, Vector.getElem?_eq_some_iff]

theorem readEntry_of_lt (b : Buffer) {i : Nat} (h : i < Config.nent) : readEntry b i = some b[i] := by
  simp [readEntry, h]

theorem readEntry_eq_none {b : Buffer} {i : Nat} : readEntry b i = none ↔ Config.nent ≤ i := by
  simp [readEntry]

theorem writeEntry_of_lt (b : Buffer) {i : Nat} (w : Duty) (h : i < Config.nent) :
    writeEntry b i w = some (b.set i w h) := by
  simp [writeEntry, h]

/-- A write exists exactly at the indices of the buffer. -/
theorem writeEntry_eq_some {b b' : Buffer} {i : Nat} {w : Duty} :
    writeEntry b i w = some b' ↔ ∃ h : i < Config.nent, b' = b.set i w h := by
  unfold writeEntry
  split <;> simp_all [eq_comm]

/-- A read after a write: the word written at its own index, every other entry as before. -/
theorem readEntry_writeEntry {b b' : Buffer} {i : Nat} {w : Duty} (h : writeEntry b i w = some b') (j : Nat) :
    readEntry b' j = if j = i then some w else readEntry b j := by
  obtain ⟨hi, rfl⟩ := writeEntry_eq_some.1 h
  by_cases hj : j = i
  · subst hj
    simp [readEntry, hi]
  · simp [readEntry, hj, Ne.symm hj]

/-- Storing an entry changes the buffer alone, at one index. -/
theorem storeEntry_of_lt (s : State) {i : Nat} (w : Duty) (h : i < Config.nent) :
    storeEntry i w s = .next { s with sb := s.sb.set i w h } := by
  simp [storeEntry, writeEntry_of_lt _ _ h]

theorem storeEntry_of_ge (s : State) {i : Nat} (w : Duty) (h : Config.nent ≤ i) :
    storeEntry i w s = .fault (.noSuchEntry i) := by
  simp [storeEntry, writeEntry, Nat.not_lt.2 h]

/-- If storing answers a next state, the index exists and only that entry changed. -/
theorem storeEntry_next {s t : State} {i : Nat} {w : Duty} (h : storeEntry i w s = .next t) :
    ∃ b, writeEntry s.sb i w = some b ∧ t = { s with sb := b } := by
  unfold storeEntry at h
  split at h
  · exact ⟨_, ‹_›, by simpa using h.symm⟩
  · cases h

/-! Duty words and color words (R121 to R123, R131, R132). -/

theorem code_false : code false = Config.code0 := rfl

theorem code_true : code true = Config.code1 := rfl

theorem code_cases (b : Bool) : code b = Config.code0 ∨ code b = Config.code1 := by cases b <;> simp [code]

/-- The three words are pairwise distinct (R121). -/
theorem codes_distinct : Config.code0 ≠ Config.code1 ∧ Config.code0 ≠ Config.codeR ∧ Config.code1 ≠ Config.codeR := by
  decide

@[simp] theorem bitOf_code (b : Bool) : bitOf (code b) = some b := by cases b <;> decide

/-- Entry i of an encoded color (R131). -/
theorem readEntry_encodeColor (c : Color) {i : Nat} (h : i < 24) :
    readEntry (encodeColor c) i = some (code (c.getLsbD (23 - i))) := by
  have h' : i < Config.nent := by simp only [Config.nent]; omega
  simp [readEntry_of_lt _ h', encodeColor, h]

theorem readEntry_encodeColor_reset (c : Color) : readEntry (encodeColor c) 24 = some Config.codeR := by
  have h' : 24 < Config.nent := by simp only [Config.nent]; omega
  simp [readEntry_of_lt _ h', encodeColor]

/-- The buffer invariant, entry by entry (R22). -/
theorem wf_iff (b : Buffer) : b.wf = true ↔ readEntry b 24 = some Config.codeR ∧
    ∀ i, i < 24 → readEntry b i = some Config.code0 ∨ readEntry b i = some Config.code1 := by
  simp only [Buffer.wf, Bool.and_eq_true, decide_eq_true_eq]
  exact and_congr_right fun _ => ⟨fun h i hi => h ⟨i, hi⟩, fun h i => h i.val i.isLt⟩

/-- ENCODE keeps the buffer's form (R22). -/
theorem encodeColor_wf (c : Color) : (encodeColor c).wf = true := by
  refine (wf_iff _).2 ⟨readEntry_encodeColor_reset c, fun i hi => ?_⟩
  rw [readEntry_encodeColor c hi]
  simpa using code_cases _

/-- Writing CODE(b) below entry 24 keeps the buffer's form (R22). -/
theorem writeEntry_wf {b b' : Buffer} {i : Nat} {bit : Bool} (hi : i < 24) (hb : b.wf = true)
    (h : writeEntry b i (code bit) = some b') : b'.wf = true := by
  rw [wf_iff] at hb ⊢
  refine ⟨?_, fun j hj => ?_⟩
  · rw [readEntry_writeEntry h, if_neg (by omega)]
    exact hb.1
  · rw [readEntry_writeEntry h]
    split
    · simpa using code_cases bit
    · exact hb.2 j hj

/-- The reset buffer has the form (R43, R22). -/
theorem reset_buffer_wf : State.reset.sb.wf = true := by decide

/-- A buffer of the form is determined by its color bits (R132). -/
theorem colorBit_isSome {b : Buffer} (hb : b.wf = true) {k : Nat} (hk : k < 24) : (colorBit b k).isSome := by
  obtain h | h := ((wf_iff b).1 hb).2 (23 - k) (by omega) <;> simp only [colorBit, h] <;> decide

/-! PLAYER (R176 to R178). -/

theorem playSymbol_of_playing {s : State} (w : Duty) (h : s.pstate = .playing) (hd : s.indly = false) :
    playSymbol w s = .next (playWord w s) := by
  simp [playSymbol, h, hd]

theorem playSymbol_of_not {s : State} (w : Duty) (h : ¬(s.pstate = .playing ∧ s.indly = false)) :
    playSymbol w s = .next s := by
  simp only [playSymbol, if_neg h]

/-- Whichever duty word PLAYER reads, it plays one tick of it: a row's instruction and a word with no row agree (R92). -/
theorem playDuty_eq (w : Duty) (s : State) : playDuty w s = playSymbol w s := by
  simp only [playDuty, decode, decodeDuty]
  by_cases h0 : w = Config.code0
  · simp [h0, exec, execSym0]
  · by_cases h1 : w = Config.code1
    · simp [h1, codes_distinct.1.symm, exec, execSym1]
    · by_cases hr : w = Config.codeR
      · simp [hr, codes_distinct.2.1.symm, codes_distinct.2.2.symm, exec, execSymr]
      · simp [h0, h1, hr]

/-- The end of a pass begins the next one or ends the playback (R178). -/
theorem endPass_cases (s : State) :
    (1 < s.passRem.toNat ∧
      endPass s = { s with indly := false, dly := 0, idx := 0, tick := 0, passRem := s.passRem - 1 }) ∨
    (s.passRem.toNat ≤ 1 ∧
      endPass s = { s with
        indly := false, dly := 0, idx := 0, tick := 0, passRem := 0, pstate := .done, dout := false }) := by
  unfold endPass
  by_cases h : 1 < s.passRem.toNat
  · exact .inl ⟨h, by simp [h]⟩
  · exact .inr ⟨by omega, by simp [h]⟩

/-- The four moves of the cursor in a symbol (R176). -/
theorem advance_cases (s : State) :
    (s.tick.toNat + 1 < s.top.toNat ∧ advance s = { s with tick := s.tick + 1 }) ∨
    (s.top.toNat ≤ s.tick.toNat + 1 ∧ s.idx.toNat < 24 ∧ advance s = { s with tick := 0, idx := s.idx + 1 }) ∨
    (s.top.toNat ≤ s.tick.toNat + 1 ∧ 24 ≤ s.idx.toNat ∧ 0 < s.endDelay.toNat ∧
      advance s = { s with tick := 0, indly := true, dly := s.endDelay }) ∨
    (s.top.toNat ≤ s.tick.toNat + 1 ∧ 24 ≤ s.idx.toNat ∧ s.endDelay.toNat = 0 ∧ advance s = endPass s) := by
  unfold advance
  split
  · exact .inl ⟨‹_›, rfl⟩
  · split
    · exact .inr (.inl ⟨by omega, ‹_›, rfl⟩)
    · split
      · exact .inr (.inr (.inl ⟨by omega, by omega, ‹_›, rfl⟩))
      · exact .inr (.inr (.inr ⟨by omega, by omega, by omega, rfl⟩))

/-- The end delay counts down or ends the pass, with the pin low (R177). -/
theorem delayTick_cases (s : State) :
    (1 < s.dly.toNat ∧ delayTick s = { s with dout := false, dly := s.dly - 1 }) ∨
    (s.dly.toNat ≤ 1 ∧ delayTick s = endPass { s with dout := false }) := by
  unfold delayTick
  by_cases h : 1 < s.dly.toNat
  · exact .inl ⟨h, by simp [h]⟩
  · exact .inr ⟨by omega, by simp [h]⟩

theorem fetchDuty_first {s : State} (h : s.tick = 0) : fetchDuty s = readEntry s.sb s.idx.toNat := by simp [fetchDuty, h]

theorem fetchDuty_later {s : State} (h : s.tick ≠ 0) : fetchDuty s = some s.cur := by
  simp only [fetchDuty, if_neg h]

/-! The sweep (R191). -/

/-- The four transitions of R191. -/
theorem sweepNext_cases (p : BitVec 5) (d : Dir) :
    (d = .rising ∧ p = 20 ∧ sweepNext p d = (p, .falling)) ∨ (d = .rising ∧ p ≠ 20 ∧ sweepNext p d = (p + 1, .rising)) ∨
    (d = .falling ∧ p = 16 ∧ sweepNext p d = (p, .rising)) ∨
    (d = .falling ∧ p ≠ 16 ∧ sweepNext p d = (p - 1, .falling)) := by
  cases d <;> simp only [sweepNext, Config.windowHigh, Config.windowLow]
  · by_cases h : p = 20#5 <;> simp [h]
  · by_cases h : p = 16#5 <;> simp [h]

/-- If the sweep answers a next state, it moved as R191 says and wrote one entry. -/
theorem sweep_next {s t : State} (h : sweep s = .next t) :
    ∃ b, writeEntry s.sb (sweepNext s.pos s.dir).1.toNat (code (sweepNext s.pos s.dir).2.bit) = some b ∧
      t = { s with pos := (sweepNext s.pos s.dir).1, dir := (sweepNext s.pos s.dir).2, sb := b } := by
  obtain ⟨b, hb, rfl⟩ := storeEntry_next h
  exact ⟨b, hb, rfl⟩

end Sys2Proof.Machine
end

