-- ==== Sys2Proof/Laws/Exec.lean ====
section
/-! SUPPORT. What each command can do: every case of its meaning with the condition it happens under (R229's order). -/

namespace Sys2Proof.Machine

/-- Two next states of an outcome are the same state. -/
theorem next_inj {a b : State} : (Host.Outcome.next a : Result) = .next b ↔ a = b := by simp

/-- The next state after an error is raised. -/
theorem raise_next {c : Cause} {s t : State} (h : raise c s = .next t) : t = (s.setFlag c).answer (.err c) 0 :=
  (next_inj.1 h).symm

/-- CONFIGURE (R151). -/
theorem execConfigure_cases (d : BitVec 3) (t : BitVec 16) (l : Load) (p : BitVec 8) (s : State) :
    (s.run = true ∧ execConfigure d t l p s = raise .busy s) ∨
    (s.run = false ∧ s.cfgState ≠ .unconfigured ∧ execConfigure d t l p s = raise .config s) ∨
    (s.run = false ∧ s.cfgState = .unconfigured ∧ cfgOk d t l = false ∧
      execConfigure d t l p s = raise .config { s with cfgState := .failed }) ∨
    (s.run = false ∧ s.cfgState = .unconfigured ∧ cfgOk d t l = true ∧
      execConfigure d t l p s =
        .next ({ s with div := d, top := t, load := l, pin := p, cfgState := .valid }.answerOk)) := by
  unfold execConfigure inHostMode
  by_cases hr : s.run = true
  · exact .inl ⟨hr, if_pos hr⟩
  · rw [if_neg hr]
    have hr' : s.run = false := by simpa using hr
    by_cases hu : s.cfgState ≠ .unconfigured
    · exact .inr (.inl ⟨hr', hu, if_pos hu⟩)
    · rw [if_neg hu]
      have hu' : s.cfgState = .unconfigured := by simpa using hu
      by_cases hc : cfgOk d t l = true
      · exact .inr (.inr (.inr ⟨hr', hu', hc, if_pos hc⟩))
      · exact .inr (.inr (.inl ⟨hr', hu', by simpa using hc, if_neg hc⟩))

/-- SETDELAY (R155). -/
theorem execSetdelay_cases (d : BitVec 24) (s : State) :
    (s.run = true ∧ execSetdelay d s = raise .busy s) ∨
    (s.run = false ∧ s.lent = true ∧ execSetdelay d s = raise .busy s) ∨
    (s.run = false ∧ s.lent = false ∧ execSetdelay d s = .next ({ s with endDelay := d }.answerOk)) := by
  cases hr : s.run <;> cases hl : s.lent <;> simp [execSetdelay, inHostMode, hr, hl]

/-- ENCODE (R133). -/
theorem execEncode_cases (c : Color) (s : State) :
    (s.run = true ∧ execEncode c s = raise .busy s) ∨
    (s.run = false ∧ s.lent = true ∧ execEncode c s = raise .ownership s) ∨
    (s.run = false ∧ s.lent = false ∧ ∃ b, b = encodeColor c ∧ execEncode c s = .next ({ s with sb := b }.answerOk)) := by
  cases hr : s.run <;> cases hl : s.lent <;> simp [execEncode, inHostMode, whileOwned, hr, hl]

/-- WRITE (R134). -/
theorem execWrite_cases (i : BitVec 5) (b : Bool) (s : State) :
    (24 ≤ i.toNat ∧ execWrite i b s = raise .illegal s) ∨
    (i.toNat < 24 ∧ s.run = true ∧ execWrite i b s = raise .busy s) ∨
    (i.toNat < 24 ∧ s.run = false ∧ s.lent = true ∧ execWrite i b s = raise .ownership s) ∨
    (i.toNat < 24 ∧ s.run = false ∧ s.lent = false ∧
      ∃ x, writeEntry s.sb i.toNat (code b) = some x ∧ execWrite i b s = .next ({ s with sb := x }.answerOk)) := by
  by_cases hi : 24 ≤ i.toNat
  · exact .inl ⟨hi, if_pos hi⟩
  · have hlt : i.toNat < 24 := by omega
    have hn : i.toNat < Config.nent := by simp only [Config.nent]; omega
    have e : execWrite i b s = inHostMode s (whileOwned s (storeEntry i.toNat (code b) s.answerOk)) := if_neg hi
    rw [e]
    obtain ⟨hr, er⟩ | ⟨hr, er⟩ := inHostMode_cases s (whileOwned s (storeEntry i.toNat (code b) s.answerOk))
    · exact .inr (.inl ⟨hlt, hr, er⟩)
    · obtain ⟨hl, el⟩ | ⟨hl, el⟩ := whileOwned_cases s (storeEntry i.toNat (code b) s.answerOk)
      · exact .inr (.inr (.inl ⟨hlt, hr, hl, er.trans el⟩))
      · exact .inr (.inr (.inr ⟨hlt, hr, hl, _, writeEntry_of_lt _ _ hn, (er.trans el).trans (storeEntry_of_lt _ _ hn)⟩))

/-- READ (R135). -/
theorem execRead_cases (i : BitVec 5) (s : State) :
    (25 ≤ i.toNat ∧ execRead i s = raise .illegal s) ∨
    (i.toNat < 25 ∧ ∃ w, readEntry s.sb i.toNat = some w ∧ execRead i s = .next (s.answer .ok (w.setWidth 32))) := by
  cases h : readEntry s.sb i.toNat with
  | none => exact .inl ⟨readEntry_eq_none.1 h, by simp [execRead, h]⟩
  | some w => exact .inr ⟨(readEntry_eq_some.1 h).1, w, rfl, by simp [execRead, h]⟩

/-- RDCSR (R136). -/
theorem execRdcsr_cases (n : BitVec 3) (s : State) :
    (csr s n.toNat = none ∧ execRdcsr n s = raise .illegal s) ∨
    (∃ v, csr s n.toNat = some v ∧ execRdcsr n s = .next (s.answer .ok v)) := by
  cases h : csr s n.toNat <;> simp [execRdcsr, h]

/-- START (R160). -/
theorem execStart_cases (n : BitVec 16) (s : State) :
    (s.run = true ∧ execStart n s = raise .busy s) ∨
    (s.run = false ∧ (s.cfgState ≠ .valid ∨ n = 0) ∧ execStart n s = raise .config s) ∨
    (s.run = false ∧ s.cfgState = .valid ∧ n ≠ 0 ∧ s.pstate ≠ .idle ∧ execStart n s = raise .busy s) ∨
    (s.run = false ∧ s.cfgState = .valid ∧ n ≠ 0 ∧ s.pstate = .idle ∧
      execStart n s = .next (beginPlayback n s).answerOk) := by
  unfold execStart
  obtain ⟨hr, er⟩ | ⟨hr, er⟩ := inHostMode_cases s (playbackChecks n s (.next (beginPlayback n s).answerOk)) <;> rw [er]
  · exact .inl ⟨hr, rfl⟩
  · obtain ⟨a, e⟩ | ⟨a, b, c, e⟩ | ⟨a, b, c, e⟩ := playbackChecks_cases n s (.next (beginPlayback n s).answerOk)
    · exact .inr (.inl ⟨hr, a, e⟩)
    · exact .inr (.inr (.inl ⟨hr, a, b, c, e⟩))
    · exact .inr (.inr (.inr ⟨hr, a, b, c, e⟩))

/-- STOP, issue (R170, R171). -/
theorem execStop_cases (s : State) :
    (s.run = true ∧ execStop s = raise .busy s) ∨ (s.run = false ∧ s.pstate = .idle ∧ execStop s = .next s.answerOk) ∨
    (s.run = false ∧ s.pstate ≠ .idle ∧ execStop s = .next { s with hold := .hStop, resp := none }) := by
  cases hr : s.run
  · by_cases hp : s.pstate = .idle <;> simp [execStop, inHostMode, hr, hp]
  · simp [execStop, inHostMode, hr]

/-- WAIT, issue (R195). -/
theorem execWait_cases (s : State) :
    (s.run = true ∧ execWait s = raise .busy s) ∨
    (s.run = false ∧ execWait s = .next { s with waiting := true, hold := .hWait, resp := none }) := by
  cases hr : s.run <;> simp [execWait, inHostMode, hr]

/-- ASTEP (R191). -/
theorem execAstep_cases (s : State) :
    (s.run = true ∧ execAstep s = raise .busy s) ∨
    (s.run = false ∧ s.lent = true ∧ execAstep s = raise .ownership s) ∨
    (s.run = false ∧ s.lent = false ∧ execAstep s = sweep s.answerOk) := by
  cases hr : s.run <;> cases hl : s.lent <;> simp [execAstep, inHostMode, whileOwned, hr, hl]

/-- ARUN (R198). -/
theorem execArun_cases (n : BitVec 16) (s : State) :
    (s.run = true ∧ execArun n s = raise .busy s) ∨
    (s.run = false ∧ (s.cfgState ≠ .valid ∨ n = 0) ∧ execArun n s = raise .config s) ∨
    (s.run = false ∧ s.cfgState = .valid ∧ n ≠ 0 ∧ s.pstate ≠ .idle ∧ execArun n s = raise .busy s) ∨
    (s.run = false ∧ s.cfgState = .valid ∧ n ≠ 0 ∧ s.pstate = .idle ∧
      execArun n s = .next ({ s with run := true, aphase := .aStart, arpt := n }.answerOk)) := by
  unfold execArun
  obtain ⟨hr, er⟩ | ⟨hr, er⟩ := inHostMode_cases s
    (playbackChecks n s (.next ({ s with run := true, aphase := .aStart, arpt := n }.answerOk))) <;> rw [er]
  · exact .inl ⟨hr, rfl⟩
  · obtain ⟨a, e⟩ | ⟨a, b, c, e⟩ | ⟨a, b, c, e⟩ := playbackChecks_cases n s
      (.next ({ s with run := true, aphase := .aStart, arpt := n }.answerOk))
    · exact .inr (.inl ⟨hr, a, e⟩)
    · exact .inr (.inr (.inl ⟨hr, a, b, c, e⟩))
    · exact .inr (.inr (.inr ⟨hr, a, b, c, e⟩))

end Sys2Proof.Machine
end

