-- ==== Sys2Proof/Laws/PerInstr.lean ====
section
/-! SUPPORT. Statements about every instruction as syntax, one lemma for each constructor: the OP field of R97 to R107 stands
in bits 31..28 of a command's word, and a duty word's POL flag is 1 (R121). -/

namespace Sys2Proof.Laws.OpField

/-- The OP of a command (R97 to R107); a duty word has none. -/
def opOf : Instr → Option (BitVec 4)
  | .configure .. => some 1
  | .setdelay .. => some 2
  | .encode .. => some 3
  | .write .. => some 4
  | .read .. => some 5
  | .rdcsr .. => some 6
  | .start .. => some 7
  | .stop => some 8
  | .wait => some 9
  | .astep => some 10
  | .arun .. => some 11
  | .sym0 | .sym1 | .symr => none

/-- The word of an instruction shows which form and which operation it is. -/
def Statement (i : Instr) : Prop :=
  match encode i, opOf i with
  | .cmd32 w, some n => i.isCommand = true ∧ field w 28 4 = n
  | .duty16 w, none => i.isCommand = false ∧ w.getLsbD 15 = true
  | .cmd32 _, none => False
  | .duty16 _, some _ => False

theorem configure (div : BitVec 3) (top : BitVec 16) (load : Load) (pin : BitVec 8) :
    Statement (.configure div top load pin) := by
  refine ⟨rfl, ?_⟩
  ext k hk
  interval_cases k <;> simp only [BitVec.getElem_extractLsb', BitVec.getLsbD_cast, BitVec.getLsbD_append] <;> simp
theorem setdelay (delay : BitVec 24) : Statement (.setdelay delay) := by
  refine ⟨rfl, ?_⟩
  ext k hk
  interval_cases k <;> simp only [BitVec.getElem_extractLsb', BitVec.getLsbD_cast, BitVec.getLsbD_append] <;> simp
theorem encode (color : Color) : Statement (.encode color) := by
  refine ⟨rfl, ?_⟩
  ext k hk
  interval_cases k <;> simp only [BitVec.getElem_extractLsb', BitVec.getLsbD_cast, BitVec.getLsbD_append] <;> simp
theorem write (idx : BitVec 5) (bit : Bool) : Statement (.write idx bit) := by
  refine ⟨rfl, ?_⟩
  ext k hk
  interval_cases k <;> simp only [BitVec.getElem_extractLsb', BitVec.getLsbD_cast, BitVec.getLsbD_append] <;> simp
theorem read (idx : BitVec 5) : Statement (.read idx) := by
  refine ⟨rfl, ?_⟩
  ext k hk
  interval_cases k <;> simp only [BitVec.getElem_extractLsb', BitVec.getLsbD_cast, BitVec.getLsbD_append] <;> simp
theorem rdcsr (n : BitVec 3) : Statement (.rdcsr n) := by
  refine ⟨rfl, ?_⟩
  ext k hk
  interval_cases k <;> simp only [BitVec.getElem_extractLsb', BitVec.getLsbD_cast, BitVec.getLsbD_append] <;> simp
theorem start (rpt : BitVec 16) : Statement (.start rpt) := by
  refine ⟨rfl, ?_⟩
  ext k hk
  interval_cases k <;> simp only [BitVec.getElem_extractLsb', BitVec.getLsbD_cast, BitVec.getLsbD_append] <;> simp
theorem stop : Statement .stop := ⟨rfl, rfl⟩
theorem wait : Statement .wait := ⟨rfl, rfl⟩
theorem astep : Statement .astep := ⟨rfl, rfl⟩
theorem arun (rpt : BitVec 16) : Statement (.arun rpt) := by
  refine ⟨rfl, ?_⟩
  ext k hk
  interval_cases k <;> simp only [BitVec.getElem_extractLsb', BitVec.getLsbD_cast, BitVec.getLsbD_append] <;> simp
theorem sym0 : Statement .sym0 := ⟨rfl, rfl⟩
theorem sym1 : Statement .sym1 := ⟨rfl, rfl⟩
theorem symr : Statement .symr := ⟨rfl, rfl⟩

end Sys2Proof.Laws.OpField
end

