-- ==== Sys2Proof/Laws/Step.lean ====
section
/-! SUPPORT. What one step can do, agent by agent: the inversion lemmas a proof over all steps cites. -/

namespace Sys2Proof.Machine

/-- Taking a turn changes only the decided turns and their counter. -/
theorem takeTurn_state (s : State) :
    (takeTurn s).2 = { s with sched := (takeTurn s).2.sched, turns := (takeTurn s).2.turns } := by
  unfold takeTurn
  split <;> rfl

theorem takeTurn_cons {s : State} {t : Turn} {rest : List Turn} (h : s.sched = t :: rest) :
    takeTurn s = (t, { s with sched := rest }) := by
  simp [takeTurn, h]

theorem takeTurn_nil {s : State} (h : s.sched = []) :
    takeTurn s = (Config.freeTurn s.turns, { s with turns := s.turns + 1 }) := by
  simp [takeTurn, h]

theorem step_of_turn {s u : State} {t : Turn} (h : takeTurn s = (t, u)) : step s = runTurn t u := by
  simp [step, h]

/-- HOST's step: one of the held command's two cases, or the next command (R13, R170, R195). -/
theorem hostStep_cases (s : State) :
    (s.hold = .hStop ∧ s.pstate = .done ∧ hostStep s = .next (completeStop s)) ∨
    (s.hold = .hStop ∧ s.pstate ≠ .done ∧ hostStep s = .next s) ∨
    (s.hold = .hWait ∧ s.waiting = false ∧ hostStep s = .next (completeWait s)) ∨
    (s.hold = .hWait ∧ s.waiting = true ∧ hostStep s = .next s) ∨
    (s.hold = .none ∧ s.cmds = [] ∧ hostStep s = .next s) ∨
    (∃ w rest, s.hold = .none ∧ s.cmds = w :: rest ∧ hostStep s = presentWord w { s with cmds := rest }) := by
  unfold hostStep
  cases hh : s.hold with
  | none => cases hc : s.cmds <;> simp_all
  | hStop => by_cases hp : s.pstate = .done <;> simp [hp]
  | hWait => cases hw : s.waiting <;> simp

/-- Presenting a word runs its instruction or raises ERR_ILLEGAL (R108, R223). -/
theorem presentWord_cases (w : Word) (s : State) :
    (∃ i, decode (.cmd32 w) = .ok i ∧ presentWord w s = exec i s) ∨
    (∃ e, decode (.cmd32 w) = .error e ∧ presentWord w s = raise .illegal s) := by
  unfold presentWord
  split
  · exact .inl ⟨_, ‹_›, rfl⟩
  · exact .inr ⟨_, ‹_›, rfl⟩

/-- A command word decodes to a command, never to a duty word (R110). -/
theorem decode_cmd_isCommand {w : Word} {i : Instr} (h : decode (.cmd32 w) = .ok i) : i.isCommand = true := by
  have ck : ∀ b j, checked b j = .ok i → i = j := by
    intro b j hj
    unfold checked at hj
    split_ifs at hj
    cases hj
    rfl
  simp only [decode, decodeCommand] at h
  split at h <;> (try cases ck _ _ h) <;> (try cases h) <;> rfl

/-- PLAYER's step: nothing outside a playback, a delay tick, a symbol tick, or the fault of a missing entry (R175 to R177). -/
theorem playerStep_cases (s : State) :
    (s.pstate ≠ .playing ∧ playerStep s = .next s) ∨
    (s.pstate = .playing ∧ s.indly = true ∧ playerStep s = .next (delayTick s)) ∨
    (∃ w, s.pstate = .playing ∧ s.indly = false ∧ fetchDuty s = some w ∧ playerStep s = .next (playWord w s)) ∨
    (s.pstate = .playing ∧ s.indly = false ∧ fetchDuty s = none ∧ playerStep s = .fault (.noSuchEntry s.idx.toNat)) := by
  unfold playerStep
  by_cases hp : s.pstate = .playing
  · cases hd : s.indly with
    | true => simp [hp]
    | false =>
      cases hf : fetchDuty s with
      | none => simp [hp]
      | some w => simp [hp, playDuty_eq, playSymbol_of_playing w hp hd]
  · simp [hp]

/-- ANIMATOR's step: nothing outside RUN mode or while its condition is false, else the step of its phase (R199 to R202). -/
theorem animatorStep_cases (s : State) :
    (s.run = false ∧ animatorStep s = .next s) ∨
    (s.run = true ∧ s.aphase = .aStart ∧
      animatorStep s = .next { beginPlayback s.arpt s with waiting := true, aphase := .aWait }) ∨
    (s.run = true ∧ s.aphase = .aWait ∧ s.waiting = true ∧ animatorStep s = .next s) ∨
    (s.run = true ∧ s.aphase = .aWait ∧ s.waiting = false ∧ animatorStep s = .next { s with aphase := .aStop }) ∨
    (s.run = true ∧ s.aphase = .aStop ∧ s.pstate ≠ .done ∧ animatorStep s = .next s) ∨
    (s.run = true ∧ s.aphase = .aStop ∧ s.pstate = .done ∧
      animatorStep s = .next { releasePlayback s with aphase := .aMutate }) ∨
    (s.run = true ∧ s.aphase = .aMutate ∧ animatorStep s = sweep { s with aphase := .aStart }) := by
  unfold animatorStep
  cases hr : s.run with
  | false => simp
  | true =>
    cases ha : s.aphase with
    | aStart => simp
    | aWait => cases hw : s.waiting <;> simp
    | aStop => by_cases hp : s.pstate = .done <;> simp [hp]
    | aMutate => simp

end Sys2Proof.Machine
end

