-- ==== Sys2Proof/Laws/Run.lean ====
section
/-! SUPPORT. When an agent has an enabled step, and the rules a proof about runs cites: an invariant holds along a run, a weakly
fair agent brings what its step leads to, and fair runs exist. -/

namespace Sys2Proof.Machine

/-! Enabled steps. -/

@[simp] theorem enabled_player (s : State) : enabled .player s = decide (s.pstate = .playing) := rfl

@[simp] theorem enabled_timer (s : State) : enabled .timer s = s.waiting := rfl

@[simp] theorem enabled_reset (s : State) : enabled .reset s = true := rfl

theorem enabled_host_stop {s : State} (h : s.hold = .hStop) : enabled .host s = decide (s.pstate = .done) := by
  simp [enabled, h]

theorem enabled_host_wait {s : State} (h : s.hold = .hWait) : enabled .host s = !s.waiting := by simp [enabled, h]

theorem enabled_host_free {s : State} (h : s.hold = .none) : enabled .host s = !s.cmds.isEmpty := by simp [enabled, h]

theorem enabled_animator_host {s : State} (h : s.run = false) : enabled .animator s = false := by simp [enabled, h]

theorem enabled_animator_start {s : State} (h : s.run = true) (a : s.aphase = .aStart) : enabled .animator s = true := by
  simp [enabled, h, a]

theorem enabled_animator_wait {s : State} (h : s.run = true) (a : s.aphase = .aWait) :
    enabled .animator s = !s.waiting := by
  simp [enabled, h, a]

theorem enabled_animator_stop {s : State} (h : s.run = true) (a : s.aphase = .aStop) :
    enabled .animator s = decide (s.pstate = .done) := by
  simp [enabled, h, a]

theorem enabled_animator_mutate {s : State} (h : s.run = true) (a : s.aphase = .aMutate) :
    enabled .animator s = true := by
  simp [enabled, h, a]

/-! Runs. -/

/-- What each step keeps, and what does not look at the inputs, holds along a run from where it holds. -/
theorem Run.keeps {r : Nat → State} (h : Run r) {P : State → Prop}
    (inputs : ∀ s a c, P s → P { s with sched := a, cmds := c }) (keep : ∀ s t, P s → step s = .next t → P t) {k : Nat}
    (hk : P (r k)) : ∀ n, k ≤ n → P (r n) := by
  intro n hn
  induction n, hn using Nat.le_induction with
  | base => exact hk
  | succ n _ ih =>
    obtain ⟨u, hu, e⟩ := h n
    rw [e]
    exact inputs _ _ _ (keep _ _ ih hu)

/-- Weak fairness with a measure: while P lasts the agent is enabled, every step ends P with Q or does not raise the measure,
and the agent's own step ends P with Q or lowers it; then Q comes. -/
theorem WeaklyFair.reaches {t : Turn} {r : Nat → State} (hf : WeaklyFair t r) {P Q : Nat → Prop} (m : Nat → Nat)
    (en : ∀ n, P n → enabled t (r n) = true)
    (keep : ∀ n, P n → Q n ∨ Q (n + 1) ∨ (P (n + 1) ∧ m (n + 1) ≤ m n))
    (act : ∀ n, P n → (takeTurn (r n)).1 = t → Q n ∨ Q (n + 1) ∨ m (n + 1) < m n) {k : Nat} (hk : P k) :
    ∃ n, k ≤ n ∧ Q n := by
  induction hm : m k using Nat.strong_induction_on generalizing k with
  | _ b ih =>
    subst hm
    by_contra hq
    have no : ∀ n, k ≤ n → ¬Q n := fun n hn h => hq ⟨n, hn, h⟩
    have all : ∀ n, k ≤ n → P n ∧ m n ≤ m k := by
      intro n hn
      induction n, hn using Nat.le_induction with
      | base => exact ⟨hk, le_rfl⟩
      | succ n hn ihn =>
        obtain h | h | h := keep n ihn.1
        · exact absurd h (no n hn)
        · exact absurd h (no (n + 1) (by omega))
        · exact ⟨h.1, h.2.trans ihn.2⟩
    obtain ⟨n, hn, ht⟩ := hf k fun n hn => en n (all n hn).1
    obtain h | h | h := act n (all n hn).1 ht
    · exact no n hn h
    · exact no (n + 1) (by omega) h
    · obtain ⟨j, hj, hQ⟩ := ih (m (n + 1)) (lt_of_lt_of_le h (all n hn).2) (all (n + 1) (by omega)).1 rfl
      exact no j (by omega) hQ

/-! Fair runs exist: the four agents take turns in a circle while HOST presents nothing. -/

/-- Whose turn it is in the circle. -/
def circle (n : Nat) : Turn :=
  match n % 4 with
  | 0 => .player
  | 1 => .timer
  | 2 => .animator
  | _ => .host

/-- A state with its turn decided and no word to present. -/
def State.given (t : Turn) (s : State) : State := { s with sched := [t], cmds := [] }

/-- The next state, or the state itself where the step stops. -/
def nextOr (s : State) : State :=
  match step s with
  | .next t => t
  | .fault _ => s
  | .refused _ => s

/-- The run from a state in which the agents take turns in a circle. -/
def circleRun (s : State) : Nat → State
  | 0 => s.given (circle 0)
  | n + 1 => (nextOr (circleRun s n)).given (circle (n + 1))

theorem nextOr_of_next {s t : State} (h : step s = .next t) : nextOr s = t := by simp [nextOr, h]

theorem step_given (t : Turn) (s : State) : step (s.given t) = runTurn t { s with sched := [], cmds := [] } := rfl

theorem circleRun_turn (s : State) (n : Nat) : (takeTurn (circleRun s n)).1 = circle n := by cases n <;> rfl

/-- Every agent's turn comes again and again in the circle, so the run is fair to all of them, HOST included. -/
theorem circleRun_fair (s : State) {t : Turn} (h : t ≠ .reset) : WeaklyFair t (circleRun s) := by
  intro k _
  simp only [circleRun_turn]
  cases t with
  | host => exact ⟨4 * k + 3, by omega, by simp [circle, Nat.add_mod]⟩
  | player => exact ⟨4 * k, by omega, by simp [circle]⟩
  | timer => exact ⟨4 * k + 1, by omega, by simp [circle, Nat.add_mod]⟩
  | animator => exact ⟨4 * k + 2, by omega, by simp [circle, Nat.add_mod]⟩
  | reset => exact absurd rfl h

/-- The cursor names an entry and the sweep is in its window: what a step with nothing to present needs to go on. -/
abbrev State.inReach (s : State) : Prop := s.idx.toNat ≤ 24 ∧ 16 ≤ s.pos.toNat ∧ s.pos.toNat ≤ 20

theorem endPass_idx (s : State) : (endPass s).idx = 0 ∧ (endPass s).pos = s.pos := by
  obtain ⟨_, e⟩ | ⟨_, e⟩ := endPass_cases s <;> rw [e] <;> exact ⟨rfl, rfl⟩

theorem playWord_inReach {s : State} (w : Duty) (h : s.inReach) : (playWord w s).inReach := by
  obtain ⟨hi, hp⟩ := h
  unfold playWord
  obtain ⟨_, e⟩ | ⟨_, hl, e⟩ | ⟨_, _, _, e⟩ | ⟨_, _, _, e⟩ :=
    advance_cases { s with cur := w, dout := level w s.tick.toNat } <;> rw [e]
  · exact ⟨hi, hp⟩
  · refine ⟨?_, hp⟩
    show (s.idx + 1).toNat ≤ 24
    have : s.idx.toNat < 24 := hl
    bv_omega
  · exact ⟨hi, hp⟩
  · rw [State.inReach, (endPass_idx _).1, (endPass_idx _).2]
    exact ⟨by decide, hp⟩

theorem delayTick_inReach {s : State} (h : s.inReach) : (delayTick s).inReach := by
  obtain ⟨_, e⟩ | ⟨_, e⟩ := delayTick_cases s <;> rw [e]
  · exact h
  · rw [State.inReach, (endPass_idx _).1, (endPass_idx _).2]
    exact ⟨by decide, h.2⟩

/-- The sweep stays in its window (R192 S1). -/
theorem sweep_answers {s : State} (h : s.inReach) : ∃ t, sweep s = .next t ∧ t.inReach := by
  have w : 16 ≤ (sweepNext s.pos s.dir).1.toNat ∧ (sweepNext s.pos s.dir).1.toNat ≤ 20 := by
    obtain ⟨_, hl, hh⟩ := h
    obtain ⟨_, _, e⟩ | ⟨_, _, e⟩ | ⟨_, _, e⟩ | ⟨_, _, e⟩ := sweepNext_cases s.pos s.dir <;> rw [e] <;> simp only <;> bv_omega
  have lt : (sweepNext s.pos s.dir).1.toNat < Config.nent := by simp only [Config.nent]; omega
  exact ⟨_, storeEntry_of_lt _ _ lt, h.1, w⟩

/-- With nothing to present, every agent's step answers a next state and keeps the reach. -/
theorem given_answers {t : Turn} {s : State} (ht : t ≠ .reset) (h : s.inReach) :
    ∃ u, step (s.given t) = .next u ∧ u.inReach := by
  rw [step_given]
  generalize hv : ({ s with sched := [], cmds := [] } : State) = v
  have hr : v.inReach := by rw [← hv]; exact h
  have hc : v.cmds = [] := by rw [← hv]
  cases t with
  | host =>
    obtain ⟨_, _, e⟩ | ⟨_, _, e⟩ | ⟨_, _, e⟩ | ⟨_, _, e⟩ | ⟨_, _, e⟩ | ⟨_, _, _, c, _⟩ := hostStep_cases v
    · exact ⟨_, e, hr⟩
    · exact ⟨_, e, hr⟩
    · exact ⟨_, e, hr⟩
    · exact ⟨_, e, hr⟩
    · exact ⟨_, e, hr⟩
    · simp [hc] at c
  | player =>
    obtain ⟨_, e⟩ | ⟨_, _, e⟩ | ⟨w, _, _, _, e⟩ | ⟨_, _, f, _⟩ := playerStep_cases v
    · exact ⟨_, e, hr⟩
    · exact ⟨_, e, delayTick_inReach hr⟩
    · exact ⟨_, e, playWord_inReach w hr⟩
    · by_cases h0 : v.tick = 0
      · rw [fetchDuty_first h0, readEntry_eq_none] at f
        have := hr.1
        simp only [Config.nent] at f
        omega
      · simp [fetchDuty_later h0] at f
  | timer => exact ⟨_, rfl, hr⟩
  | animator =>
    obtain ⟨_, e⟩ | ⟨_, _, e⟩ | ⟨_, _, _, e⟩ | ⟨_, _, _, e⟩ | ⟨_, _, _, e⟩ | ⟨_, _, _, e⟩ | ⟨_, _, e⟩ :=
      animatorStep_cases v
    · exact ⟨_, e, hr⟩
    · exact ⟨_, e, (by decide : (0 : BitVec 5).toNat ≤ 24), hr.2⟩
    · exact ⟨_, e, hr⟩
    · exact ⟨_, e, hr⟩
    · exact ⟨_, e, hr⟩
    · exact ⟨_, e, hr⟩
    · obtain ⟨u, hu, k⟩ := sweep_answers (s := { v with aphase := .aStart }) hr
      exact ⟨u, e.trans hu, k⟩
  | reset => exact absurd rfl ht

theorem circle_ne_reset (n : Nat) : circle n ≠ .reset := by
  unfold circle
  split <;> simp

/-- The circle from a state in reach is a run. -/
theorem circleRun_run {s : State} (h : s.inReach) : Run (circleRun s) := by
  have go : ∀ n, ∃ v : State, circleRun s n = v.given (circle n) ∧ v.inReach := by
    intro n
    induction n with
    | zero => exact ⟨s, rfl, h⟩
    | succ n ih =>
      obtain ⟨v, e, hv⟩ := ih
      obtain ⟨u, hu, k⟩ := given_answers (circle_ne_reset n) hv
      exact ⟨u, by rw [circleRun, e, nextOr_of_next hu], k⟩
  intro n
  obtain ⟨v, e, hv⟩ := go n
  obtain ⟨u, hu, _⟩ := given_answers (circle_ne_reset n) hv
  refine ⟨u, e ▸ hu, ?_⟩
  rw [circleRun, e, nextOr_of_next hu]
  rfl

/-- Fair runs exist, from every state in reach. -/
theorem circleRun_fairRun {s : State} (h : s.inReach) : FairRun (circleRun s) :=
  ⟨circleRun_run h, circleRun_fair s (by decide), circleRun_fair s (by decide), circleRun_fair s (by decide)⟩

end Sys2Proof.Machine
end

