-- ==== Sys2Proof/Tests/Slice0.lean ====
section
/-! SUPPORT. Tests of the model on the spec's own vectors (95_test_vectors.md, named in each comment) and the witnesses of the
statements' hypotheses. -/

namespace Sys2Proof.Tests
open Sys2Proof.Machine

/-! Small states. -/

/-- The next state an outcome answers. -/
def answered : Result → Option State
  | .next t => some t
  | .fault _ => none
  | .refused _ => none

/-- One step of a state in which HOST presents a word. -/
def present (w : Nat) (s : State) : Option State := answered (step (s.withFetchWord 32 w))

/-- The status and the data of the answer after HOST presents a word. -/
def reply (w : Nat) (s : State) : Option (Nat × Nat) :=
  (present w s).bind fun t => t.resp.map fun a => (a.status.code.toNat, a.data.toNat)

/-- One step with the turn given. -/
def turn (t : Turn) (s : State) : Option State := answered (step { s with sched := [t] })

/-- "Configured" of 95_test_vectors.md: reset, then CONFIGURE 0, 20, COMMON, 37. -/
def configured : State := { State.reset with cfgState := .valid, top := 20, pin := 37 }

/-- Configured, the reference color, a playback of two passes just started. -/
def playing : State := { configured with sb := encodeColor 0x0000FF, pstate := .playing, passRem := 2 }

/-- The end delay of the last pass, at its last tick. -/
def delaying : State :=
  { playing with passRem := 1, idx := 24, indly := true, dly := 1, cur := 0x8000 }

/-- The passes are exhausted. -/
def doneState : State := { configured with sb := encodeColor 0x0000FF, pstate := .done }

/-- RUN mode at A_START. -/
def runStart : State := { configured with run := true, arpt := 2 }

/-- RUN mode at A_WAIT with the timer armed. -/
def runWait : State := { playing with run := true, arpt := 2, aphase := .aWait, waiting := true }

/-- RUN mode at A_STOP with the passes exhausted. -/
def runStop : State := { doneState with run := true, arpt := 2, aphase := .aStop }

/-- RUN mode at A_MUTATE. -/
def runMutate : State := { configured with run := true, arpt := 2, aphase := .aMutate }

/-! WellFormed: an ill-formed term for each check (R108). -/

theorem test_wellFormed_write : (Instr.write 23 true).wellFormed = true ∧ (Instr.write 24 false).wellFormed = false := by
  decide
theorem test_wellFormed_read : (Instr.read 24).wellFormed = true ∧ (Instr.read 25).wellFormed = false := by decide
theorem test_wellFormed_rdcsr : (Instr.rdcsr 6).wellFormed = true ∧ (Instr.rdcsr 7).wellFormed = false := by decide

/-! Decoding: words written out bit by bit from R97 to R107, fields from OP down. -/

theorem test_decode_configure :
    decode (.cmd32 0b0001_101_1_00100101_0000000000010100) = .ok (.configure 5 20 .perChannel 37) := rfl
theorem test_decode_setdelay : decode (.cmd32 0b0010_0000_000000000000001100011111) = .ok (.setdelay 799) := rfl
theorem test_decode_encode : decode (.cmd32 0b0011_0000_101001011100001100111100) = .ok (.encode 0xA5C33C) := rfl
theorem test_decode_write : decode (.cmd32 0b0100_000000000000000_10001_0000000_1) = .ok (.write 17 true) := rfl
theorem test_decode_read : decode (.cmd32 0b0101_00000000000000000000000_10000) = .ok (.read 16) := rfl
theorem test_decode_rdcsr : decode (.cmd32 0b0110_0000000000000000000000000_011) = .ok (.rdcsr 3) := rfl
theorem test_decode_start : decode (.cmd32 0b0111_000000000000_0000000000000010) = .ok (.start 2) := rfl
theorem test_decode_stop : decode (.cmd32 0b1000_0000000000000000000000000000) = .ok .stop := rfl
theorem test_decode_wait : decode (.cmd32 0b1001_0000000000000000000000000000) = .ok .wait := rfl
theorem test_decode_astep : decode (.cmd32 0b1010_0000000000000000000000000000) = .ok .astep := rfl
theorem test_decode_arun : decode (.cmd32 0b1011_000000000000_1111111111111111) = .ok (.arun 65535) := rfl
theorem test_decode_sym0 : decode (.duty16 0b1_000000000000111) = .ok .sym0 := rfl
theorem test_decode_sym1 : decode (.duty16 0b1_000000000001101) = .ok .sym1 := rfl
theorem test_decode_symr : decode (.duty16 0b1_000000000000000) = .ok .symr := rfl

/-- The illegal words of 95_test_vectors.md 2.11, each with its reason. -/
theorem test_decode_illegal_op :
    ([0x00000000, 0xFFFFFFFF, 0x0FFFFFFF, 0xC0000000, 0xD0000000, 0xE0000000, 0xF0000000].all fun w : Word =>
      decide (decodeCommand w = .error .reservedOp)) = true := by decide
theorem test_decode_illegal_bits :
    ([0x21000000, 0x31000000, 0x40000002, 0x40002000, 0x50000020, 0x60000008, 0x70010000, 0x80000001, 0x90000001, 0xA0000001,
      0xB0010000].all fun w : Word => decide (decodeCommand w = .error .reservedBits)) = true := by decide
theorem test_decode_illegal_index :
    ([0x40001800, 0x40001F01, 0x50000019, 0x60000007].all fun w : Word =>
      decide (decodeCommand w = .error .indexRange)) = true := by decide

/-! TimingTable (vectors T1 to T3, T4, T9, L-b, L-d, L-e). -/

theorem test_codes : Config.code0 = 0x8007 ∧ Config.code1 = 0x800D ∧ Config.codeR = 0x8000 := by decide
theorem test_sym_pol0 : sym 0x0007 20 = List.replicate 7 false ++ List.replicate 13 true := by decide
theorem test_sym_short : sym 0x8007 8 = List.replicate 7 true ++ [false] ∧ sym 0x800D 8 = List.replicate 8 true := by decide
theorem test_sym0_first_tick :
    (answered (exec .sym0 playing)).map (fun t => (t.tick.toNat, t.dout, t.cur)) = some (1, true, 0x8007) := by decide
theorem test_sym0_falls :
    (answered (exec .sym0 { playing with tick := 7, cur := 0x8007 })).map (fun t => (t.tick.toNat, t.dout)) =
      some (8, false) := by decide
theorem test_sym1_last_high_tick :
    (answered (exec .sym1 { playing with idx := 17, tick := 12, cur := 0x800D })).map (fun t => (t.tick.toNat, t.dout)) =
      some (13, true) := by decide
/-- Vector L-h: the reset symbol ends and the delay begins. -/
theorem test_symr_enters_delay :
    (answered (exec .symr { playing with idx := 24, tick := 19, cur := 0x8000 })).map
      (fun t => (t.idx.toNat, t.tick.toNat, t.indly, t.dly.toNat)) = some (24, 0, true, 799) := by decide

/-! PLAYER (vectors L-b, L-k, L-n). -/

theorem test_player_fetches_first_entry :
    (turn .player playing).map (fun t => (csrStatus t, csrCursor t, t.cur)) = some (0x00005005, 0x00020000, 0x8007) := by
  decide
theorem test_player_next_pass :
    (turn .player { delaying with passRem := 2 }).map (fun t => (csrStatus t, csrCursor t)) =
      some (0x00001005, 0x00010000) := by decide
theorem test_player_done :
    (turn .player delaying).map (fun t => (csrStatus t, csrCursor t)) = some (0x00001006, 0x00000000) := by decide
/-- A duty word with no row is played all the same (T4: POL = 0, DUTY = 7, low at tick 0). -/
theorem test_player_generic_word :
    (answered (step (playing.withFetchWord 16 0x0007))).map (fun t => (t.cur, t.dout, t.tick.toNat)) =
      some (0x0007, false, 1) := by decide

/-! BitEncoder (vectors B1, B8, B10, B14, A1, A3, A5, A9, A12, A13, A15, X6). -/

theorem test_encode_B8 : (encodeColor 0xA5C33C).toList.map (fun w => decide (w = 0x800D)) =
    [true, false, true, false, false, true, false, true, true, true, false, false, false, false, true, true, false, false,
      true, true, true, true, false, false, false] := by decide
theorem test_decode_buffer_B9 : decodeBuffer (encodeColor 0x123456) = some 0x123456 := by decide
theorem test_encode_reset :
    (present 0x300000FF State.reset).map (fun t => (decodeBuffer t.sb, csrStatus t)) = some (some 0x0000FF, 0) := by decide
theorem test_encode_lent :
    (present 0x30FFFFFF playing).map (fun t => (t.fOwn, decodeBuffer t.sb)) = some (true, some 0x0000FF) := by decide
theorem test_write_A1 :
    (present 0x40001100 { configured with sb := encodeColor 0x0000FF }).map (fun t => decodeBuffer t.sb) =
      some (some 0x0000BF) := by decide
theorem test_write_illegal_before_ownership : reply 0x40001800 playing = some (3, 0) := by decide
theorem test_read_while_lent : reply 0x50000011 playing = some (0, 0x0000800D) := by decide
theorem test_read_reset_entry : reply 0x50000018 State.reset = some (0, 0x00008000) := by decide
theorem test_rdcsr_configured : reply 0x60000000 configured = some (0, 0x02500014) := by decide
theorem test_rdcsr_status_flags :
    reply 0x60000002 { playing with eCfg := true, eBusy := true, eIll := true } = some (0, 0x00001705) := by decide
/-- R62: the less significant byte of an entry first. -/
theorem test_byteView : byteView (encodeColor 0) 0 = some 0x07 ∧ byteView (encodeColor 0) 49 = some 0x80 ∧
    byteView (encodeColor 0) 50 = none := by decide

/-! SequencePlayer (vectors CF1, CF3, CF9, CF10, S1, S5, S7, S8, X5). -/

theorem test_configure_CF1 :
    (present 0x10250014 State.reset).map (fun t => (csrCfg t, csrStatus t)) = some (0x02500014, 0x00001000) := by decide
theorem test_configure_CF3 :
    (present 0x10258000 State.reset).map (fun t => (csrCfg t, csrStatus t)) = some (0, 0x00002100) := by decide
theorem test_setdelay_CF9 : (present 0x20FFFFFF State.reset).map csrSeq = some 0x00FFFFFF := by decide
theorem test_setdelay_CF10 : (present 0x2000000A doneState).map (fun t => (t.endDelay, t.eBusy)) = some (799, true) := by
  decide
theorem test_start_S1 :
    (present 0x70000002 configured).map (fun t => (csrStatus t, csrCursor t)) = some (0x00001005, 0x00020000) := by decide
theorem test_start_X5 : reply 0x70000000 playing = some (1, 0) := by decide
theorem test_stop_S7 : (present 0x80000000 configured).map (fun t => (t.hold, csrStatus t)) = some (.none, 0x00001000) := by
  decide
theorem test_stop_completes :
    (turn .host { doneState with hold := .hStop }).map (fun t => (t.hold, csrStatus t, t.resp)) =
      some (.none, 0x00001000, okAnswer) := by decide

/-! AnimationController (vectors M1 frames 1 and 5, M4, W1, W2, W3, AR1, AR12, X8). -/

theorem test_astep_frame1 :
    (present 0xA0000000 { State.reset with sb := encodeColor 0x0000FF }).map (fun t => (csrAnim t, decodeBuffer t.sb)) =
      some (0x00000011, some 0x0000BF) := by decide
theorem test_astep_frame5 :
    (present 0xA0000000 { State.reset with sb := encodeColor 0x000087, pos := 20 }).map
      (fun t => (csrAnim t, decodeBuffer t.sb)) = some (0x00000114, some 0x00008F) := by decide
theorem test_wait_W1 : (present 0x90000000 configured).map (fun t => (t.waiting, t.hold, t.resp)) =
    some (true, .hWait, none) := by decide
theorem test_wait_completes : (turn .host { configured with hold := .hWait }).map (fun t => (t.hold, t.resp)) =
    some (.none, okAnswer) := by decide
theorem test_timer_W2 : (turn .timer { configured with waiting := true, hold := .hWait }).map
    (fun t => (t.waiting, t.hold)) = some (false, .hWait) := by decide
theorem test_arun_AR1 : (present 0xB0000002 configured).map (fun t => (csrStatus t, csrAnim t)) =
    some (0x00001008, 0x00020010) := by decide
theorem test_arun_AR12 : (present 0xB0000002 playing).map (fun t => (t.run, t.eBusy)) = some (false, true) := by decide

/-! ANIMATOR and the lock-out (vectors AR2, AR3, AR8, AR9). -/

theorem test_animator_AR2 : (turn .animator runStart).map (fun t => (csrStatus t, csrCursor t)) =
    some (0x0000105D, 0x00020000) := by decide
theorem test_animator_AR8 : (turn .animator { runStop with eBusy := true }).map csrStatus = some 0x00001238 := by decide
theorem test_animator_AR9 :
    (turn .animator { runMutate with sb := encodeColor 0x0000FF, eBusy := true }).map
      (fun t => (csrStatus t, csrAnim t, decodeBuffer t.sb)) = some (0x00001208, 0x00020011, some 0x0000BF) := by decide
theorem test_lock_out_AR3 : reply 0x70000002 runWait = some (2, 0) ∧ reply 0x50000010 runWait = some (0, 0x0000800D) := by
  decide

/-! Reset and the pseudo-commands (R260, R112). -/

theorem test_reset_turn : (turn .reset { playing with dout := true, hold := .hStop }).map
    (fun t => decide (t.blockView = State.reset.blockView)) = some true := by decide
theorem test_pseudo : pseudoSetRgb 0x12 0x34 0x56 = [.encode 0x123456] ∧
    (pseudoBoot 37).map encode = [.cmd32 0x10250014, .cmd32 0x2000031F, .cmd32 0x300000FF] ∧
    (pseudoFrame 2).map encode = [.cmd32 0x70000002, .cmd32 0x90000000, .cmd32 0x80000000, .cmd32 0xA0000000] ∧
    (pseudoPatch 17 false).map encode = [.cmd32 0x40001100] := by decide
/-- R126, R181: the reference configuration meets the reset gap with 819 ticks, and one playback has 2598 ticks. -/
theorem test_reference_ticks : resetGapMet 20 799 0 = true ∧ resetGapMet 20 780 0 = false ∧ playbackTicks 20 799 2 = 2598 := by
  decide
/-- L6: symbols of one tick. -/
theorem test_waveform_L6 : waveform (encodeColor 0) 1 0 1 = List.replicate 24 true ++ [false] := by decide
/-- R182 at START: a playback of n passes has n x (25 x TOP + END_DELAY) ticks left. -/
theorem test_ticksLeft : playing.ticksLeft = 2598 ∧ delaying.ticksLeft = 1 := by decide

end Sys2Proof.Tests
end

