-- ==== Sys2Proof/Tests/Witness.lean ====
section
/-! SUPPORT. For every statement with hypotheses, a concrete state and operands that meet all of them together, one for each of
its clauses, at the boundary values of the clause. -/

namespace Sys2Proof.Tests
open Sys2Proof.Machine

/-! States that meet the invariants of R45. -/

theorem configured_inv : configured.Inv := by constructor <;> decide
theorem playing_inv : playing.Inv := by constructor <;> decide
theorem delaying_inv : delaying.Inv := by constructor <;> decide
theorem doneState_inv : doneState.Inv := by constructor <;> decide
theorem runStart_inv : runStart.Inv := by constructor <;> decide
theorem runWait_inv : runWait.Inv := by constructor <;> decide
theorem runStop_inv : runStop.Inv := by constructor <;> decide
theorem runMutate_inv : runMutate.Inv := by constructor <;> decide

/-- CONFIGURE failed (P6). -/
def failed : State := { State.reset with cfgState := .failed, eCfg := true }

theorem failed_inv : failed.Inv := by constructor <;> decide

/-- Inside a symbol: entry 17, the "1" code, at tick 12. -/
def midSymbol : State := { playing with idx := 17, tick := 12, cur := 0x800D, dout := true }

theorem midSymbol_inv : midSymbol.Inv := by constructor <;> decide

/-- The last tick of the reset symbol of a pass. -/
def lastTick : State := { playing with idx := 24, tick := 19, cur := 0x8000 }

theorem lastTick_inv : lastTick.Inv := by constructor <;> decide

/-! Encoding. -/

theorem witness_DecodeOfEncodeIsTheInstruction :
    (Instr.write 23 true).wellFormed = true ∧ (Instr.read 24).wellFormed = true ∧ (Instr.rdcsr 6).wellFormed = true ∧
      (Instr.configure 7 0xFFFF .perChannel 0xFF).wellFormed = true := by decide
theorem witness_DecodedWordIsItsOnlyEncoding :
    decode (.cmd32 0x40001701) = .ok (.write 23 true) ∧ decode (.duty16 0x800D) = .ok .sym1 := ⟨rfl, rfl⟩
theorem witness_CommandWordsDecodeByTheTable :
    commandTable.any (fun r => r.fits 0x1FFFFFFF) = true ∧ commandTable.any (fun r => r.fits 0x50000019) = false := by decide

/-! Turns and steps. -/

theorem witness_TurnsAreTakenInOrder :
    { State.reset with sched := [.timer, .host] }.sched = .timer :: [.host] ∧ State.reset.sched = [] := ⟨rfl, rfl⟩
theorem witness_StepRunsThePresentedCommand :
    ∃ (s u : State) (w : Word) (rest : List Word) (i : Instr), takeTurn s = (.host, u) ∧ s.hold = .none ∧
      s.cmds = w :: rest ∧ decode (.cmd32 w) = .ok i :=
  ⟨{ playing with sched := [.host], cmds := [0x50000018, 0x80000000] }, _, _, _, .read 24, rfl, rfl, rfl, rfl⟩
theorem witness_StepRunsTheFetchedDutyWord_first :
    ∃ (s u : State) (w : Duty) (i : Instr), takeTurn s = (.player, u) ∧ s.pstate = .playing ∧ s.indly = false ∧ s.tick = 0 ∧
      readEntry s.sb s.idx.toNat = some w ∧ decode (.duty16 w) = .ok i :=
  ⟨{ playing with sched := [.player], idx := 24 }, _, 0x8000, .symr, rfl, rfl, rfl, rfl, by decide, rfl⟩
theorem witness_StepRunsTheFetchedDutyWord_later :
    ∃ (s u : State) (w : Duty) (i : Instr), takeTurn s = (.player, u) ∧ s.pstate = .playing ∧ s.indly = false ∧ s.tick ≠ 0 ∧
      s.cur = w ∧ decode (.duty16 w) = .ok i :=
  ⟨{ midSymbol with sched := [.player] }, _, 0x800D, .sym1, rfl, rfl, rfl, by decide, rfl, rfl⟩
/-- Illegal words for each clause of R108, at the edges of its fields, and a state that presents one. -/
theorem witness_IllegalWordRecordsOnlyEIll :
    ([0x0FFFFFFF, 0xC0000000, 0xFFFFFFFF, 0x21000000, 0x31000000, 0x40002000, 0x40000002, 0x40001800, 0x50000020, 0x50000019,
      0x60000008, 0x60000007, 0x70010000, 0xB0010000, 0x80000001, 0x90000001, 0xA0000001].all fun w : Word =>
        decide (illegalWord w)) = true ∧
    ∃ s u : State, takeTurn s = (.host, u) ∧ s.hold = .none ∧ s.cmds = [0xFFFFFFFF] :=
  ⟨by decide, { playing with sched := [.host], cmds := [0xFFFFFFFF] }, _, rfl, rfl, rfl⟩
theorem witness_DisabledTurnChangesNothing :
    (configured.pstate ≠ .playing ∧ configured.waiting = false ∧ configured.run = false ∧ configured.hold = .none ∧
      configured.cmds = []) ∧
    (runWait.aphase = .aWait ∧ runWait.waiting = true) ∧
    ({ runStop with pstate := .playing }.aphase = .aStop ∧ { runStop with pstate := .playing }.pstate ≠ .done) ∧
    ({ playing with hold := .hStop }.hold = .hStop ∧ { playing with hold := .hStop }.pstate ≠ .done) ∧
    (takeTurn { configured with sched := [.player] }).1 = .player ∧
    (takeTurn { configured with sched := [.timer] }).1 = .timer := by decide

/-! Reset. -/

theorem witness_ResetRestoresEveryElement : ∃ s u : State, takeTurn s = (.reset, u) ∧ s.pstate = .playing :=
  ⟨{ playing with sched := [.reset] }, _, rfl, rfl⟩

/-! The causes and the commands. -/

theorem witness_ConfigErrorRecordsOnlyECfg :
    (configured.run = false ∧ configured.cfgState ≠ .unconfigured) ∧
    (State.reset.run = false ∧ State.reset.cfgState = .unconfigured ∧ cfgOk 0 32768 .common = false ∧
      cfgOk 0 0 .common = false ∧ cfgOk 0 20 .perChannel = false) ∧ (failed.run = false ∧ failed.cfgState ≠ .valid) := by
  decide
theorem witness_BusyErrorRecordsOnlyEBusy :
    (doneState.run = false ∧ doneState.cfgState = .valid ∧ (65535 : BitVec 16) ≠ 0 ∧ doneState.pstate ≠ .idle ∧
      doneState.lent = true) ∧
    (runStart.run = true ∧ (Instr.write 23 true).wellFormed = true ∧ (Instr.write 23 true).isCommand = true ∧
      (Instr.write 23 true).onlyReads = false ∧ Instr.stop.onlyReads = false) := by decide
theorem witness_OwnershipFaultRecordsOnlyFOwn :
    doneState.run = false ∧ doneState.lent = true ∧ playing.lent = true ∧ (23 : BitVec 5).toNat ≤ 23 := by decide
theorem witness_CommonChecksComeFirst :
    (Instr.write 24 false).wellFormed = false ∧ (Instr.read 25).wellFormed = false ∧ (Instr.rdcsr 7).wellFormed = false ∧
      (Instr.start 0).wellFormed = true ∧ (Instr.start 0).isCommand = true ∧ (Instr.start 0).onlyReads = false ∧
      runWait.run = true := by decide
theorem witness_ConfigureLoadsTheRegisters :
    State.reset.run = false ∧ State.reset.cfgState = .unconfigured ∧ 1 ≤ (1 : BitVec 16).toNat ∧
      (32767 : BitVec 16).toNat ≤ 32767 ∧ Load.ofBit false = .common := by decide
theorem witness_SetdelayLoadsEndDelay :
    (State.reset.run = false ∧ State.reset.lent = false) ∧ (doneState.run = false ∧ doneState.lent = true) := by decide
theorem witness_EncodeWritesTheColor :
    (State.reset.run = false ∧ State.reset.lent = false) ∧ (playing.run = false ∧ playing.lent = true) := by decide
theorem witness_WritePatchesOneEntry :
    (configured.run = false ∧ configured.lent = false ∧ (0 : BitVec 5).toNat ≤ 23 ∧ (23 : BitVec 5).toNat ≤ 23) ∧
    (doneState.run = false ∧ doneState.lent = true) ∧ 24 ≤ (24 : BitVec 5).toNat ∧ 24 ≤ (31 : BitVec 5).toNat := by decide
theorem witness_ReadAnswersTheEntry :
    (0 : BitVec 5).toNat ≤ 24 ∧ (24 : BitVec 5).toNat ≤ 24 ∧ (0 : BitVec 5) ≠ 24 ∧ State.reset.sb.wf = true ∧
      25 ≤ (25 : BitVec 5).toNat ∧ 25 ≤ (31 : BitVec 5).toNat := by decide
theorem witness_StartBeginsThePlayback :
    (configured.run = false ∧ configured.cfgState = .valid ∧ (1 : BitVec 16) ≠ 0 ∧ (65535 : BitVec 16) ≠ 0 ∧
      configured.pstate = .idle) ∧
    (doneState.run = false ∧ doneState.cfgState = .valid ∧ doneState.pstate ≠ .idle) ∧
    (State.reset.run = false ∧ State.reset.cfgState ≠ .valid) := by decide
theorem witness_StopHoldsUntilDoneAndReleases :
    (configured.run = false ∧ configured.pstate = .idle) ∧ (doneState.run = false ∧ doneState.pstate ≠ .idle) ∧
    (∃ s u : State, takeTurn s = (.host, u) ∧ s.hold = .hStop ∧ s.pstate = .done) ∧
    (∃ s u : State, takeTurn s = (.host, u) ∧ s.hold = .hStop ∧ s.pstate = .playing) :=
  ⟨by decide, by decide, ⟨{ doneState with hold := .hStop, sched := [.host] }, _, rfl, rfl, rfl⟩,
    ⟨{ playing with hold := .hStop, sched := [.host] }, _, rfl, rfl, rfl⟩⟩
theorem witness_WaitHoldsUntilTheTimerExpires :
    playing.run = false ∧
    (∃ s u : State, takeTurn s = (.timer, u) ∧ s.waiting = true) ∧
    (∃ s u : State, takeTurn s = (.host, u) ∧ s.hold = .hWait ∧ s.waiting = false) ∧
    (∃ s u : State, takeTurn s = (.host, u) ∧ s.hold = .hWait ∧ s.waiting = true) :=
  ⟨rfl, ⟨{ runWait with sched := [.timer] }, _, rfl, rfl⟩,
    ⟨{ playing with hold := .hWait, sched := [.host] }, _, rfl, rfl, rfl⟩,
    ⟨{ playing with hold := .hWait, waiting := true, sched := [.host] }, _, rfl, rfl, rfl⟩⟩
/-- One state for each transition of R191: both boundaries, and both ends of each move. -/
theorem witness_AstepMovesAndWritesOneEntry :
    (doneState.run = false ∧ doneState.lent = true) ∧
    (({ configured with pos := 20 } : State).lent = false ∧ ({ configured with pos := 20 } : State).dir = .rising) ∧
    (({ configured with pos := 19 } : State).pos ≠ 20 ∧ configured.pos = 16 ∧ configured.run = false) ∧
    (({ configured with dir := .falling } : State).pos = 16 ∧ ({ configured with dir := .falling } : State).dir = .falling) ∧
    (({ configured with pos := 17, dir := .falling } : State).pos ≠ 16 ∧
      16 ≤ ({ configured with pos := 17, dir := .falling } : State).pos.toNat) := by decide
theorem witness_ArunEntersRunMode :
    (configured.run = false ∧ configured.cfgState = .valid ∧ (65535 : BitVec 16) ≠ 0 ∧ configured.pstate = .idle) ∧
    (playing.run = false ∧ playing.cfgState = .valid ∧ playing.pstate ≠ .idle) ∧
    (failed.run = false ∧ failed.cfgState ≠ .valid) := by decide

/-! PLAYER: one state for each move of the cursor. -/

theorem witness_LevelIsThePulseShape :
    (0x8007 : Duty).getLsbD 15 = true ∧ (0x0007 : Duty).getLsbD 15 = false ∧ 6 < (field (0x8007 : Duty) 0 15).toNat ∧
      ¬ 7 < (field (0x8007 : Duty) 0 15).toNat := by decide
theorem witness_DutyWordsPlayOneTick :
    (midSymbol.pstate = .playing ∧ midSymbol.indly = false ∧ 1 ≤ midSymbol.top.toNat ∧ midSymbol.idx.toNat ≤ 24 ∧
      midSymbol.tick.toNat + 1 < midSymbol.top.toNat) ∧
    ({ midSymbol with idx := 23, tick := 19 }.top.toNat ≤ { midSymbol with idx := 23, tick := 19 }.tick.toNat + 1 ∧
      { midSymbol with idx := 23, tick := 19 }.idx.toNat < 24) ∧
    (lastTick.top.toNat ≤ lastTick.tick.toNat + 1 ∧ lastTick.idx = 24 ∧ lastTick.endDelay ≠ 0) ∧
    ({ lastTick with endDelay := 0 }.endDelay = 0 ∧ 1 < { lastTick with endDelay := 0 }.passRem.toNat) ∧
    { lastTick with endDelay := 0, passRem := 1 }.passRem.toNat ≤ 1 := by decide
theorem witness_DutyWordsOutsideASymbolDoNothing :
    Instr.sym0.isCommand = false ∧ ¬(doneState.pstate = .playing ∧ doneState.indly = false) ∧
      ¬(delaying.pstate = .playing ∧ delaying.indly = false) := by decide
theorem witness_PlayerTickInASymbol_first :
    ∃ (s u : State) (w : Duty), takeTurn s = (.player, u) ∧ s.pstate = .playing ∧ s.indly = false ∧ 1 ≤ s.top.toNat ∧
      s.idx.toNat ≤ 24 ∧ s.tick = 0 ∧ readEntry s.sb s.idx.toNat = some w ∧ s.tick.toNat + 1 < s.top.toNat :=
  ⟨{ playing with sched := [.player] }, _, 0x8007, rfl, rfl, rfl, by decide, by decide, rfl, by decide, by decide⟩
theorem witness_PlayerTickInASymbol_moves :
    (takeTurn { lastTick with sched := [.player] } = (.player, { lastTick with sched := [] }) ∧ lastTick.tick ≠ 0 ∧
      lastTick.cur = 0x8000 ∧ lastTick.top.toNat ≤ lastTick.tick.toNat + 1 ∧ lastTick.idx = 24 ∧ lastTick.endDelay ≠ 0 ∧
      1 < lastTick.passRem.toNat) ∧
    ({ midSymbol with idx := 23, tick := 19 }.idx.toNat < 24) ∧ { lastTick with endDelay := 0 }.endDelay = 0 ∧
    { lastTick with endDelay := 0, passRem := 1 }.passRem.toNat ≤ 1 := by decide
theorem witness_PlayerTickInTheEndDelay :
    (takeTurn { delaying with sched := [.player] } = (.player, { delaying with sched := [] }) ∧
      delaying.pstate = .playing ∧ delaying.indly = true ∧ delaying.dly.toNat ≤ 1 ∧ delaying.passRem.toNat ≤ 1) ∧
    1 < { delaying with dly := 2 }.dly.toNat ∧ 1 < { delaying with passRem := 2 }.passRem.toNat := by decide
theorem witness_PlayerTickCountsThePlaybackDown :
    ∃ s u : State, s.Inv ∧ s.pstate = .playing ∧ takeTurn s = (.player, u) ∧ s.ticksLeft = 1 :=
  ⟨{ delaying with sched := [.player] }, _, by constructor <;> decide, rfl, rfl, by decide⟩
theorem witness_OtherAgentsCannotDisturbThePlayback :
    ∃ s t : State, s.Inv ∧ s.pstate = .playing ∧ (takeTurn s).1 ≠ .player ∧ (takeTurn s).1 ≠ .reset ∧ step s = .next t :=
  ⟨{ midSymbol with sched := [.host], cmds := [0x2000000A] }, _, by constructor <;> decide, rfl, by decide, by decide, rfl⟩
theorem witness_PlaybackEndsAfterItsTicks : midSymbol.Inv ∧ midSymbol.pstate = .playing ∧ 0 < midSymbol.ticksLeft :=
  ⟨midSymbol_inv, rfl, by decide⟩
theorem witness_PlaybackEmitsItsWaveform :
    configured.Inv ∧ configured.run = false ∧ configured.cfgState = .valid ∧ configured.pstate = .idle ∧
      (65535 : BitVec 16) ≠ 0 := ⟨configured_inv, rfl, rfl, rfl, by decide⟩

/-! The color word and the sweep. -/

theorem witness_ColorAndBufferRoundTrip : (encodeColor 0xA5C33C).wf = true ∧ State.reset.sb.wf = true := by decide
theorem witness_WriteReplacesOneColorBit :
    configured.run = false ∧ configured.lent = false ∧ (23 : BitVec 5).toNat ≤ 23 ∧ decodeBuffer configured.sb = some 0 := by
  decide
theorem witness_SweepIsBoundedAndPeriodic : 16 ≤ (16 : BitVec 5).toNat ∧ (20 : BitVec 5).toNat ≤ 20 := by decide

/-! ANIMATOR and the whole machine. -/

theorem witness_AnimatorTakesItsFourSteps :
    (takeTurn { runStart with sched := [.animator] } = (.animator, { runStart with sched := [] })) ∧
    (runStart.run = true ∧ runStart.aphase = .aStart) ∧
    (runWait.run = true ∧ runWait.aphase = .aWait ∧ { runWait with waiting := false }.waiting = false) ∧
    (runStop.run = true ∧ runStop.aphase = .aStop ∧ runStop.pstate = .done) ∧
    { runStop with pstate := .playing }.pstate = .playing ∧
    (runMutate.run = true ∧ runMutate.aphase = .aMutate ∧ 16 ≤ runMutate.pos.toNat ∧ runMutate.pos.toNat ≤ 20) := by decide
theorem witness_RunModeLoopIsTheHostLoop :
    (runStart.Inv ∧ runStart.run = true ∧ runStart.aphase = .aStart) ∧
    ({ runWait with waiting := false }.Inv ∧ { runWait with waiting := false }.aphase = .aWait) ∧
    (runStop.Inv ∧ runStop.run = true ∧ runStop.aphase = .aStop ∧ runStop.pstate = .done) ∧
    (runMutate.Inv ∧ runMutate.run = true ∧ runMutate.aphase = .aMutate) :=
  ⟨⟨runStart_inv, rfl, rfl⟩, ⟨by constructor <;> decide, rfl⟩, ⟨runStop_inv, rfl, rfl, rfl⟩, ⟨runMutate_inv, rfl, rfl⟩⟩
theorem witness_EveryStepKeepsTheInvariants : ∃ s t : State, s.Inv ∧ step s = .next t ∧ t.pstate = .done :=
  ⟨{ delaying with sched := [.player] }, _, by constructor <;> decide, rfl, rfl⟩
theorem witness_TheMachineNeverStops : midSymbol.Inv ∧ lastTick.Inv := ⟨midSymbol_inv, lastTick_inv⟩
theorem witness_NoMutationWhileLent :
    ∃ s t : State, s.Inv ∧ s.lent = true ∧ (takeTurn s).1 ≠ .reset ∧ step s = .next t ∧ t.fOwn = true :=
  ⟨{ playing with sched := [.host], cmds := [0x30FFFFFF] }, _, by constructor <;> decide, rfl, by decide, rfl, rfl⟩
theorem witness_LendBeginsByStartAndEndsByStop :
    (∃ s t : State, step s = .next t ∧ s.lent = false ∧ t.lent = true) ∧
    (∃ s t : State, step s = .next t ∧ s.lent = true ∧ t.lent = false) :=
  ⟨⟨{ configured with sched := [.host], cmds := [0x70000002] }, _, rfl, rfl, rfl⟩,
    ⟨{ runStop with sched := [.animator] }, _, rfl, rfl, rfl⟩⟩
theorem witness_StickyFlagsStaySet :
    ∃ s t : State, (takeTurn s).1 ≠ .reset ∧ step s = .next t ∧ s.flag .config = true :=
  ⟨{ failed with sched := [.host], cmds := [0x300000FF] }, _, by decide, rfl, rfl⟩
theorem witness_ConfigurationIsPermanent :
    ∃ s t : State, s.cfgState ≠ .unconfigured ∧ (takeTurn s).1 ≠ .reset ∧ step s = .next t :=
  ⟨{ configured with sched := [.host], cmds := [0x1E007FFF] }, _, by decide, by decide, rfl⟩
theorem witness_FailedConfigurationPlaysNothing :
    ∃ s t : State, s.Inv ∧ s.cfgState = .failed ∧ (takeTurn s).1 ≠ .reset ∧ step s = .next t :=
  ⟨{ failed with sched := [.host], cmds := [0x70000002] }, _, by constructor <;> decide, rfl, by decide, rfl⟩
theorem witness_RunModeIsLeftOnlyByReset :
    ∃ s t : State, s.run = true ∧ (takeTurn s).1 ≠ .reset ∧ step s = .next t :=
  ⟨{ runMutate with sched := [.animator] }, _, rfl, by decide, rfl⟩
theorem witness_HostCannotDisturbTheLoop :
    ∃ s u t : State, s.Inv ∧ s.run = true ∧ takeTurn s = (.host, u) ∧ step s = .next t ∧ t.eBusy = true :=
  ⟨{ runWait with sched := [.host], cmds := [0x80000000] }, _, _, by constructor <;> decide, rfl, rfl, rfl, rfl⟩
theorem witness_AnimatorRaisesNothing :
    ∃ s u t : State, s.Inv ∧ takeTurn s = (.animator, u) ∧ step s = .next t ∧ t.aphase = .aWait :=
  ⟨{ runStart with sched := [.animator] }, _, _, by constructor <;> decide, rfl, rfl, rfl⟩
theorem witness_BadStatesComeFromAnsweredErrors :
    (∃ s t : State, step s = .next t ∧ s.clean = true ∧ t.clean = false ∧ t.faulted = true) ∧
    (∃ s t : State, step s = .next t ∧ s.clean = true ∧ t.clean = false ∧ t.erred = true) :=
  ⟨⟨{ playing with sched := [.host], cmds := [0x40001100] }, _, rfl, rfl, rfl, rfl⟩,
    ⟨{ configured with sched := [.host], cmds := [0x70000000] }, _, rfl, rfl, rfl, rfl⟩⟩

/-! Fair runs. -/

/-- HOST is held in STOP while the last tick of a playback is to come. -/
def heldStop : State := { delaying with hold := .hStop }

/-- HOST is held in WAIT with the timer armed. -/
def heldWait : State := { configured with hold := .hWait, waiting := true }

theorem heldStop_inv : heldStop.Inv := by constructor <;> decide
theorem heldWait_inv : heldWait.Inv := by constructor <;> decide

theorem witness_HeldHostIsNeverStuck :
    (heldStop.Inv ∧ heldStop.hold = .hStop ∧ enabled .host heldStop = false) ∧
    (heldWait.Inv ∧ heldWait.hold = .hWait ∧ enabled .host heldWait = false) :=
  ⟨⟨heldStop_inv, rfl, rfl⟩, ⟨heldWait_inv, rfl, rfl⟩⟩
/-- The bad state R233 names: held in STOP with nothing playing. -/
theorem test_stuck : { heldStop with pstate := .idle }.stuck = true ∧ heldStop.stuck = false ∧ heldWait.stuck = false ∧
    { heldStop with pstate := .done }.stuck = false ∧ configured.stuck = false := by decide

theorem witness_EveryPlaybackEndsInFairRuns :
    ∃ r : Nat → State, Run r ∧ WeaklyFair .player r ∧ (r 0).Inv ∧ (r 0).pstate = .playing :=
  ⟨circleRun delaying, circleRun_run (by decide), circleRun_fair _ (by decide), by constructor <;> decide, rfl⟩
theorem witness_HeldCommandsCompleteInFairRuns_stop :
    ∃ r : Nat → State, Run r ∧ (r 0).Inv ∧ WeaklyFair .player r ∧ WeaklyFair .timer r ∧ WeaklyFair .host r ∧
      (r 0).hold = .hStop :=
  ⟨circleRun heldStop, circleRun_run (by decide), by constructor <;> decide, circleRun_fair _ (by decide),
    circleRun_fair _ (by decide), circleRun_fair _ (by decide), rfl⟩
theorem witness_HeldCommandsCompleteInFairRuns_wait :
    ∃ r : Nat → State, Run r ∧ (r 0).Inv ∧ WeaklyFair .player r ∧ WeaklyFair .timer r ∧ WeaklyFair .host r ∧
      (r 0).hold = .hWait :=
  ⟨circleRun heldWait, circleRun_run (by decide), by constructor <;> decide, circleRun_fair _ (by decide),
    circleRun_fair _ (by decide), circleRun_fair _ (by decide), rfl⟩
theorem witness_RunModeLoopGoesOnInFairRuns : ∃ r : Nat → State, FairRun r ∧ (r 0).Inv ∧ (r 0).run = true :=
  ⟨circleRun runStart, circleRun_fairRun (by decide), by constructor <;> decide, rfl⟩

end Sys2Proof.Tests
end

section
/-! PROOFS. HOST's turn runs the command HOST presents (00_scope.md R13; 30_encoding.md R108). -/

namespace Sys2Proof.Machine

/-- What a taken turn leaves is the state before with other decided turns and another turn counter. -/
theorem eq_of_takeTurn {s u : State} {t : Turn} (h : takeTurn s = (t, u)) :
    u = { s with sched := u.sched, turns := u.turns } := by
  simpa only [h] using takeTurn_state s

theorem takeTurn_hold {s u : State} {t : Turn} (h : takeTurn s = (t, u)) : u.hold = s.hold := by
  rw [eq_of_takeTurn h]

theorem takeTurn_cmds {s u : State} {t : Turn} (h : takeTurn s = (t, u)) : u.cmds = s.cmds := by
  rw [eq_of_takeTurn h]

/-- HOST's turn, not held, takes its next word off its list and presents it (R13). -/
theorem hostStep_of_cmds {s : State} {w : Word} {rest : List Word} (hold : s.hold = .none) (cmds : s.cmds = w :: rest) :
    hostStep s = presentWord w { s with cmds := rest } := by
  simp only [hostStep, hold, cmds]

/-- A word that decodes runs its instruction (R108). -/
theorem presentWord_of_decode {w : Word} {i : Instr} (hi : decode (.cmd32 w) = .ok i) (s : State) :
    presentWord w s = exec i s := by
  simp only [presentWord, hi]

/-- A step in which HOST, not held, presents a word: the rule for every word, legal or not. -/
theorem step_of_presented {s u : State} {w : Word} {rest : List Word} (turn : takeTurn s = (.host, u))
    (hold : s.hold = .none) (cmds : s.cmds = w :: rest) : step s = presentWord w { u with cmds := rest } :=
  calc step s = hostStep u := step_of_turn turn
    _ = presentWord w { u with cmds := rest } :=
      hostStep_of_cmds ((takeTurn_hold turn).trans hold) ((takeTurn_cmds turn).trans cmds)

/-- Settles O6: taking the turn keeps the hold and HOST's list, so HOST presents the word, which runs its instruction. -/
theorem stepRunsThePresentedCommand : Obligations.StepRunsThePresentedCommand := by
  intro s u w rest i turn hold cmds hi
  exact (step_of_presented turn hold cmds).trans (presentWord_of_decode hi _)

end Sys2Proof.Machine
end

section
/-! PROOFS. The reset state (10_state.md R43, R35 to R41, R45). -/

namespace Sys2Proof.Machine

/-- Settles O10: the 24 color entries, then the other elements, evaluated. -/
theorem resetValuesAreTheTable : Obligations.ResetValuesAreTheTable :=
  ⟨by decide, by decide⟩

/-- Settles O24: the views of the one reset state, evaluated. -/
theorem viewsHaveTheirResetValues : Obligations.ViewsHaveTheirResetValues := by
  unfold Obligations.ViewsHaveTheirResetValues
  decide

/-- Settles O44: the buffer has its form and POS is the low end of the window; the block is unconfigured, idle and in host
mode with nothing armed or held, so every invariant with one of these as its premise holds. -/
theorem resetMeetsTheInvariants : Obligations.ResetMeetsTheInvariants where
  buffer := reset_buffer_wf
  window := by decide
  topBit := by decide
  config := nofun
  lentConfigured := fun lent => absurd rfl lent
  cursor := nofun
  quiet := fun _ => ⟨rfl, rfl⟩
  rest := fun _ => ⟨rfl, rfl, rfl, rfl⟩
  latch := nofun
  running := nofun
  phaseOwned := nofun
  phaseLent := nofun
  armed := nofun
  heldStop := nofun

end Sys2Proof.Machine
end

section
/-! PROOFS. What any turn but a reset can make of a state, said once: the rules about all agents are case splits on it. -/

namespace Sys2Proof.Machine

/-- The commands of host mode that do more than answer or raise, each with what its checks let through (R229). -/
inductive CommandEffect (s : State) : Result → Prop
  /-- CONFIGURE with a bad argument (R152). -/
  | configFailed (unconfigured : s.cfgState = .unconfigured) :
      CommandEffect s (raise .config { s with cfgState := .failed })
  /-- CONFIGURE (R151). -/
  | configured (div : BitVec 3) (top : BitVec 16) (load : Load) (pin : BitVec 8)
      (unconfigured : s.cfgState = .unconfigured) (ok : cfgOk div top load = true) :
      CommandEffect s (.next ({ s with div := div, top := top, load := load, pin := pin, cfgState := .valid }.answerOk))
  /-- SETDELAY (R155). -/
  | delaySet (delay : BitVec 24) (owned : s.lent = false) : CommandEffect s (.next ({ s with endDelay := delay }.answerOk))
  /-- ENCODE and WRITE, which keep the buffer's form (R133, R134, R22). -/
  | written (b : Buffer) (owned : s.lent = false) (wf : s.sb.wf = true → b.wf = true) :
      CommandEffect s (.next ({ s with sb := b }.answerOk))
  /-- ASTEP (R191). -/
  | swept (owned : s.lent = false) : CommandEffect s (sweep s.answerOk)
  /-- START (R160). -/
  | started (n : BitVec 16) (valid : s.cfgState = .valid) (nonzero : n ≠ 0) (idle : s.pstate = .idle) :
      CommandEffect s (.next (beginPlayback n s).answerOk)
  /-- The issue of STOP while the buffer is lent (R170). -/
  | stopIssued (lent : s.pstate ≠ .idle) : CommandEffect s (.next { s with hold := .hStop, resp := none })
  /-- The issue of WAIT (R195). -/
  | waitIssued : CommandEffect s (.next { s with waiting := true, hold := .hWait, resp := none })
  /-- ARUN (R198). -/
  | runEntered (n : BitVec 16) (valid : s.cfgState = .valid) (nonzero : n ≠ 0) (idle : s.pstate = .idle) :
      CommandEffect s (.next ({ s with run := true, aphase := .aStart, arpt := n }.answerOk))

/-- What a turn of one of the four agents answers, from the state its inputs were taken from. -/
inductive TurnEffect (s : State) : Result → Prop
  /-- No enabled step (log 4). -/
  | idle : TurnEffect s (.next s)
  /-- A command that only answers. -/
  | answered (v : Word) : TurnEffect s (.next (s.answer .ok v))
  /-- A command that only raises a cause (R224). -/
  | raised (c : Cause) : TurnEffect s (raise c s)
  | command {r : Result} (free : s.hold = .none) (host : s.run = false) (effect : CommandEffect s r) : TurnEffect s r
  /-- STOP's completion (R170). -/
  | stopCompleted (held : s.hold = .hStop) (done : s.pstate = .done) : TurnEffect s (.next (completeStop s))
  /-- WAIT's completion (R195). -/
  | waitCompleted (held : s.hold = .hWait) (expired : s.waiting = false) : TurnEffect s (.next (completeWait s))
  /-- PLAYER_TICK in the end delay (R177). -/
  | delayTicked (playing : s.pstate = .playing) (delay : s.indly = true) : TurnEffect s (.next (delayTick s))
  /-- PLAYER_TICK in a symbol (R176). -/
  | wordPlayed (w : Duty) (playing : s.pstate = .playing) (symbol : s.indly = false) (fetch : fetchDuty s = some w) :
      TurnEffect s (.next (playWord w s))
  /-- PLAYER at an entry that does not exist (log 6). -/
  | fetchFailed (f : Fault) (playing : s.pstate = .playing) (symbol : s.indly = false) (fetch : fetchDuty s = none) :
      TurnEffect s (.fault f)
  /-- TIMER_EXPIRE (R196). -/
  | expired : TurnEffect s (.next (timerStep s))
  /-- A_START (R199). -/
  | frameStarted (run : s.run = true) (phase : s.aphase = .aStart) :
      TurnEffect s (.next { beginPlayback s.arpt s with waiting := true, aphase := .aWait })
  /-- A_WAIT (R200). -/
  | frameWaited (run : s.run = true) (phase : s.aphase = .aWait) (expired : s.waiting = false) :
      TurnEffect s (.next { s with aphase := .aStop })
  /-- A_STOP (R201). -/
  | frameStopped (run : s.run = true) (phase : s.aphase = .aStop) (done : s.pstate = .done) :
      TurnEffect s (.next { releasePlayback s with aphase := .aMutate })
  /-- A_MUTATE (R202). -/
  | frameMutated (run : s.run = true) (phase : s.aphase = .aMutate) : TurnEffect s (sweep { s with aphase := .aStart })

/-! HOST's commands. -/

section
variable {s : State} (free : s.hold = .none)
include free

theorem execConfigure_effect (d : BitVec 3) (t : BitVec 16) (l : Load) (p : BitVec 8) :
    TurnEffect s (execConfigure d t l p s) := by
  obtain ⟨_, e⟩ | ⟨_, _, e⟩ | ⟨host, un, _, e⟩ | ⟨host, un, ok, e⟩ := execConfigure_cases d t l p s <;> rw [e]
  · exact .raised _
  · exact .raised _
  · exact .command free host (.configFailed un)
  · exact .command free host (.configured d t l p un ok)

theorem execSetdelay_effect (d : BitVec 24) : TurnEffect s (execSetdelay d s) := by
  obtain ⟨_, e⟩ | ⟨_, _, e⟩ | ⟨host, owned, e⟩ := execSetdelay_cases d s <;> rw [e]
  · exact .raised _
  · exact .raised _
  · exact .command free host (.delaySet d owned)

theorem execEncode_effect (c : Color) : TurnEffect s (execEncode c s) := by
  obtain ⟨_, e⟩ | ⟨_, _, e⟩ | ⟨host, owned, b, hb, e⟩ := execEncode_cases c s <;> rw [e]
  · exact .raised _
  · exact .raised _
  · exact .command free host (.written b owned fun _ => hb ▸ encodeColor_wf c)

theorem execWrite_effect (i : BitVec 5) (b : Bool) : TurnEffect s (execWrite i b s) := by
  obtain ⟨_, e⟩ | ⟨_, _, e⟩ | ⟨_, _, _, e⟩ | ⟨hi, host, owned, x, hx, e⟩ := execWrite_cases i b s <;> rw [e]
  · exact .raised _
  · exact .raised _
  · exact .raised _
  · exact .command free host (.written x owned fun wf => writeEntry_wf hi wf hx)

theorem execStart_effect (n : BitVec 16) : TurnEffect s (execStart n s) := by
  obtain ⟨_, e⟩ | ⟨_, _, e⟩ | ⟨_, _, _, _, e⟩ | ⟨host, valid, nonzero, idle, e⟩ := execStart_cases n s <;> rw [e]
  · exact .raised _
  · exact .raised _
  · exact .raised _
  · exact .command free host (.started n valid nonzero idle)

theorem execStop_effect : TurnEffect s (execStop s) := by
  obtain ⟨_, e⟩ | ⟨_, _, e⟩ | ⟨host, lent, e⟩ := execStop_cases s <;> rw [e]
  · exact .raised _
  · exact .answered 0
  · exact .command free host (.stopIssued lent)

theorem execWait_effect : TurnEffect s (execWait s) := by
  obtain ⟨_, e⟩ | ⟨host, e⟩ := execWait_cases s <;> rw [e]
  · exact .raised _
  · exact .command free host .waitIssued

theorem execAstep_effect : TurnEffect s (execAstep s) := by
  obtain ⟨_, e⟩ | ⟨_, _, e⟩ | ⟨host, owned, e⟩ := execAstep_cases s <;> rw [e]
  · exact .raised _
  · exact .raised _
  · exact .command free host (.swept owned)

theorem execArun_effect (n : BitVec 16) : TurnEffect s (execArun n s) := by
  obtain ⟨_, e⟩ | ⟨_, _, e⟩ | ⟨_, _, _, _, e⟩ | ⟨host, valid, nonzero, idle, e⟩ := execArun_cases n s <;> rw [e]
  · exact .raised _
  · exact .raised _
  · exact .raised _
  · exact .command free host (.runEntered n valid nonzero idle)

end

theorem execRead_effect (i : BitVec 5) (s : State) : TurnEffect s (execRead i s) := by
  obtain ⟨_, e⟩ | ⟨_, w, _, e⟩ := execRead_cases i s <;> rw [e]
  · exact .raised _
  · exact .answered _

theorem execRdcsr_effect (n : BitVec 3) (s : State) : TurnEffect s (execRdcsr n s) := by
  obtain ⟨_, e⟩ | ⟨v, _, e⟩ := execRdcsr_cases n s <;> rw [e]
  · exact .raised _
  · exact .answered v

/-- Every command of a HOST that is not held has one of the effects. -/
theorem exec_effect {i : Instr} {s : State} (hi : i.isCommand = true) (free : s.hold = .none) : TurnEffect s (exec i s) := by
  cases i with
  | configure d t l p => exact execConfigure_effect free d t l p
  | setdelay d => exact execSetdelay_effect free d
  | encode c => exact execEncode_effect free c
  | write i b => exact execWrite_effect free i b
  | read i => exact execRead_effect i s
  | rdcsr n => exact execRdcsr_effect n s
  | start n => exact execStart_effect free n
  | stop => exact execStop_effect free
  | wait => exact execWait_effect free
  | astep => exact execAstep_effect free
  | arun n => exact execArun_effect free n
  | sym0 => cases hi
  | sym1 => cases hi
  | symr => cases hi

theorem presentWord_effect (w : Word) {s : State} (free : s.hold = .none) : TurnEffect s (presentWord w s) := by
  obtain ⟨i, hi, e⟩ | ⟨_, _, e⟩ := presentWord_cases w s <;> rw [e]
  · exact exec_effect (decode_cmd_isCommand hi) free
  · exact .raised _

/-! The four agents. -/

/-- HOST's step, from the state without the word it may have taken off its list. -/
theorem hostStep_effect (s : State) : ∃ cmds, TurnEffect { s with cmds := cmds } (hostStep s) := by
  obtain ⟨held, done, e⟩ | ⟨_, _, e⟩ | ⟨waits, exp, e⟩ | ⟨_, _, e⟩ | ⟨_, _, e⟩ | ⟨w, rest, free, _, e⟩ := hostStep_cases s <;>
    rw [e]
  · exact ⟨s.cmds, .stopCompleted held done⟩
  · exact ⟨s.cmds, .idle⟩
  · exact ⟨s.cmds, .waitCompleted waits exp⟩
  · exact ⟨s.cmds, .idle⟩
  · exact ⟨s.cmds, .idle⟩
  · exact ⟨rest, presentWord_effect w free⟩

theorem playerStep_effect (s : State) : TurnEffect s (playerStep s) := by
  obtain ⟨_, e⟩ | ⟨playing, delay, e⟩ | ⟨w, playing, symbol, fetch, e⟩ | ⟨playing, symbol, fetch, e⟩ :=
    playerStep_cases s <;> rw [e]
  · exact .idle
  · exact .delayTicked playing delay
  · exact .wordPlayed w playing symbol fetch
  · exact .fetchFailed _ playing symbol fetch

theorem animatorStep_effect (s : State) : TurnEffect s (animatorStep s) := by
  obtain ⟨_, e⟩ | ⟨run, phase, e⟩ | ⟨_, _, _, e⟩ | ⟨run, phase, exp, e⟩ | ⟨_, _, _, e⟩ | ⟨run, phase, done, e⟩ |
    ⟨run, phase, e⟩ := animatorStep_cases s <;> rw [e]
  · exact .idle
  · exact .frameStarted run phase
  · exact .idle
  · exact .frameWaited run phase exp
  · exact .idle
  · exact .frameStopped run phase done
  · exact .frameMutated run phase

theorem runTurn_effect {t : Turn} (h : t ≠ .reset) (s : State) :
    ∃ cmds, TurnEffect { s with cmds := cmds } (runTurn t s) := by
  cases t with
  | host => exact hostStep_effect s
  | player => exact ⟨s.cmds, playerStep_effect s⟩
  | timer => exact ⟨s.cmds, .expired⟩
  | animator => exact ⟨s.cmds, animatorStep_effect s⟩
  | reset => exact absurd rfl h

/-- Every step but a reset has one of the effects, from the state whose inputs (R44) the step has taken. -/
theorem step_effect {s : State} (h : (takeTurn s).1 ≠ .reset) :
    ∃ cmds sched turns, TurnEffect { s with cmds := cmds, sched := sched, turns := turns } (step s) := by
  obtain ⟨cmds, effect⟩ := runTurn_effect h (takeTurn s).2
  have inputs : { (takeTurn s).2 with cmds := cmds } =
      { s with cmds := cmds, sched := (takeTurn s).2.sched, turns := (takeTurn s).2.turns } :=
    congrArg (fun u : State => { u with cmds := cmds }) (takeTurn_state s)
  exact ⟨cmds, _, _, inputs ▸ effect⟩

end Sys2Proof.Machine
end

section
/-! PROOFS. The invariants (10_state.md R45): every effect of a turn answers a next state that meets them. -/

namespace Sys2Proof.Machine

/-! Updates no invariant looks at. -/

/-- The invariants do not look at the model's inputs. -/
theorem State.Inv.inputs {s : State} (h : s.Inv) (cmds : List Word) (sched : List Turn) (turns : Nat) :
    { s with cmds := cmds, sched := sched, turns := turns }.Inv := { h with }

theorem State.Inv.answer {s : State} (h : s.Inv) (st : Status) (d : Word) : (s.answer st d).Inv := { h with }

theorem State.Inv.setFlag {s : State} (h : s.Inv) (c : Cause) : (s.setFlag c).Inv := by
  cases c <;> exact { h with }

/-- R224: a raised cause is answered, and the invariants do not look at the flag and the answer. -/
theorem State.Inv.raised {s : State} (h : s.Inv) (c : Cause) : ∃ t, raise c s = .next t ∧ t.Inv :=
  ⟨_, raise_eq c s, (h.setFlag c).answer _ _⟩

/-! PLAYER. -/

/-- In a playback the cursor, the latch and the pin may be anything that I5 and R29 allow. -/
theorem State.Inv.cursorMoved {s : State} (h : s.Inv) (playing : s.pstate = .playing) {passRem : BitVec 16} {idx : BitVec 5}
    {tick : BitVec 15} {indly : Bool} {dly : BitVec 24} {cur : Duty} {dout : Bool}
    (bounds : 1 ≤ passRem.toNat ∧ idx.toNat ≤ 24 ∧ tick.toNat < s.top.toNat)
    (delay : indly = true → 1 ≤ dly.toNat ∧ dly.toNat ≤ s.endDelay.toNat ∧ idx = 24)
    (latched : indly = false → 0 < tick.toNat → readEntry s.sb idx.toNat = some cur) :
    { s with
      passRem := passRem, idx := idx, tick := tick, indly := indly, dly := dly, cur := cur, dout := dout }.Inv :=
  { h with
    cursor := fun _ => ⟨bounds.1, bounds.2.1, bounds.2.2, delay⟩
    latch := fun _ => latched
    quiet := fun stopped => absurd playing stopped
    rest := fun stopped => absurd playing stopped }

/-- R178: the next pass stands at entry 0, and the end of the last one is DONE with the cursor at rest and the pin low. -/
theorem State.Inv.endPass {s : State} (h : s.Inv) (playing : s.pstate = .playing) : (endPass s).Inv := by
  obtain ⟨rem, _, below, _⟩ := h.cursor playing
  obtain ⟨more, e⟩ | ⟨_, e⟩ := endPass_cases s <;> rw [e]
  · exact h.cursorMoved playing ⟨by bv_omega, by decide, Nat.zero_lt_of_lt below⟩ nofun
      (fun _ inside => absurd inside (Nat.lt_irrefl 0))
  · exact { h with
      lentConfigured := fun _ => h.lentConfigured (by simp [playing])
      cursor := nofun
      quiet := fun _ => ⟨rfl, rfl⟩
      rest := fun _ => ⟨rfl, rfl, rfl, rfl⟩
      latch := nofun
      phaseOwned := fun run phase => by simpa [playing] using h.phaseOwned run phase
      phaseLent := fun _ _ => nofun
      heldStop := fun held => ⟨nofun, (h.heldStop held).2⟩ }

/-- R177: the end delay counts down inside its bounds of I5, and ends the pass at 1. -/
theorem State.Inv.delayTick {s : State} (h : s.Inv) (playing : s.pstate = .playing) (inDelay : s.indly = true) :
    (delayTick s).Inv := by
  obtain ⟨rem, last, below, delay⟩ := h.cursor playing
  obtain ⟨pos, le, atEnd⟩ := delay inDelay
  obtain ⟨more, e⟩ | ⟨_, e⟩ := delayTick_cases s <;> rw [e]
  · exact h.cursorMoved playing ⟨rem, last, below⟩ (fun _ => ⟨by bv_omega, by bv_omega, atEnd⟩) (h.latch playing)
  · exact (h.cursorMoved playing ⟨rem, last, below⟩ delay (h.latch playing)).endPass playing

/-- R176: the cursor moves within its bounds, and within a symbol the latch stays the entry played. -/
theorem State.Inv.advance {s : State} (h : s.Inv) (playing : s.pstate = .playing) (symbol : s.indly = false)
    (latched : readEntry s.sb s.idx.toNat = some s.cur) : (advance s).Inv := by
  obtain ⟨rem, last, below, _⟩ := h.cursor playing
  have first : (0 : BitVec 15).toNat < s.top.toNat := Nat.zero_lt_of_lt below
  obtain ⟨more, e⟩ | ⟨_, next, e⟩ | ⟨_, full, pos, e⟩ | ⟨_, _, _, e⟩ := advance_cases s <;> rw [e]
  · have top := h.topBit
    exact h.cursorMoved playing ⟨rem, last, by bv_omega⟩ (by simp [symbol]) (fun _ _ => latched)
  · exact h.cursorMoved playing ⟨rem, by bv_omega, first⟩ (by simp [symbol])
      (fun _ inside => absurd inside (Nat.lt_irrefl 0))
  · exact h.cursorMoved playing ⟨rem, last, first⟩ (fun _ => ⟨pos, le_rfl, by bv_omega⟩) nofun
  · exact h.endPass playing

/-- R29, R176: in a symbol the word PLAYER fetches is the entry it plays, also when it comes from the latch. -/
theorem State.Inv.fetchDuty_eq {s : State} (h : s.Inv) (playing : s.pstate = .playing) (symbol : s.indly = false) :
    fetchDuty s = readEntry s.sb s.idx.toNat := by
  by_cases first : s.tick = 0
  · exact fetchDuty_first first
  · rw [fetchDuty_later first, h.latch playing symbol (by bv_omega)]

theorem State.Inv.playWord {s : State} (h : s.Inv) (playing : s.pstate = .playing) (symbol : s.indly = false) {w : Duty}
    (fetch : fetchDuty s = some w) : (playWord w s).Inv := by
  rw [h.fetchDuty_eq playing symbol] at fetch
  obtain ⟨rem, last, below, delay⟩ := h.cursor playing
  exact (h.cursorMoved playing ⟨rem, last, below⟩ delay fun _ _ => fetch).advance playing symbol fetch

/-- I5: the entry PLAYER plays exists. -/
theorem State.Inv.fetchDuty_ne_none {s : State} (h : s.Inv) (playing : s.pstate = .playing) (symbol : s.indly = false) :
    fetchDuty s ≠ none := by
  rw [h.fetchDuty_eq playing symbol, Ne, readEntry_eq_none]
  exact Nat.not_le.2 (Nat.lt_succ_of_le (h.cursor playing).2.1)

/-! The sweep, the start of a playback and its release, which HOST and ANIMATOR share. -/

/-- R191: outside a playback the sweep writes CODE(DIR') at an entry of the window. -/
theorem State.Inv.swept {s : State} (h : s.Inv) (idle : s.pstate = .idle) : ∃ t, sweep s = .next t ∧ t.Inv := by
  have stopped : s.pstate ≠ .playing := by simp [idle]
  obtain ⟨_, idx, _, _⟩ := h.rest stopped
  have atRest : s.idx.toNat ≤ 24 := by simp [idx]
  obtain ⟨t, answers, _, low, high⟩ := sweep_answers ⟨atRest, h.window⟩
  obtain ⟨b, write, rfl⟩ := sweep_next answers
  exact ⟨_, answers, { h with
    buffer := writeEntry_wf (Nat.lt_of_le_of_lt high (by decide)) h.buffer write
    window := ⟨low, high⟩
    latch := fun playing => absurd playing stopped }⟩

/-- What the cursor of a beginning playback needs (I5): the configuration is valid and a pass is to come. -/
theorem State.Inv.firstTick {s : State} (h : s.Inv) (valid : s.cfgState = .valid) {n : BitVec 16} (nonzero : n ≠ 0) :
    1 ≤ n.toNat ∧ (0 : BitVec 5).toNat ≤ 24 ∧ (0 : BitVec 15).toNat < s.top.toNat :=
  ⟨by bv_omega, by decide, (h.config valid).1⟩

/-- R160, R199: a playback begins in a valid configuration, by HOST in host mode or on ANIMATOR's way into A_WAIT. -/
theorem State.Inv.playbackBegun {s : State} (h : s.Inv) (valid : s.cfgState = .valid) {n : BitVec 16} (nonzero : n ≠ 0)
    (free : s.hold = .none) {waiting : Bool} {aphase : APhase} (phase : s.run = true → aphase = .aWait)
    (armed : waiting = true → s.run = true) : { beginPlayback n s with waiting := waiting, aphase := aphase }.Inv := by
  obtain ⟨rem, first, below⟩ := h.firstTick valid nonzero
  exact { h with
    lentConfigured := fun _ => valid
    cursor := fun _ => ⟨rem, first, below, nofun⟩
    quiet := fun stopped => absurd rfl stopped
    rest := fun stopped => absurd rfl stopped
    latch := fun _ _ inside => absurd inside (Nat.lt_irrefl 0)
    phaseOwned := fun run owned => by simp [phase run] at owned
    phaseLent := fun _ _ => nofun
    armed := fun w => .inr ⟨armed w, phase (armed w)⟩
    heldStop := fun held => by simp [free] at held }

/-- R170, R201: the buffer is released from DONE, by HOST in host mode or on ANIMATOR's way into A_MUTATE. -/
theorem State.Inv.released {s : State} (h : s.Inv) (done : s.pstate = .done) (expired : s.waiting = false) {hold : Hold}
    {aphase : APhase} (free : hold = .none) (phase : s.run = true → aphase = .aMutate) :
    { releasePlayback s with hold := hold, aphase := aphase }.Inv := by
  have stopped : s.pstate ≠ .playing := by simp [done]
  exact { h with
    lentConfigured := fun lent => absurd rfl lent
    cursor := nofun
    quiet := fun _ => h.quiet stopped
    rest := fun _ => h.rest stopped
    latch := nofun
    running := fun run => let ⟨valid, rpt, _⟩ := h.running run; ⟨valid, rpt, free⟩
    phaseOwned := fun _ _ => rfl
    phaseLent := fun run lent => by simp [phase run] at lent
    armed := fun armed => by simp [expired] at armed
    heldStop := fun held => by simp [free] at held }

/-! HOST. -/

/-- I9: the timer is not armed while HOST is not held in host mode. -/
theorem State.Inv.waiting_of_free {s : State} (h : s.Inv) (free : s.hold ≠ .hWait) (host : s.run = false) :
    s.waiting = false := by
  by_contra armed
  obtain held | ⟨run, _⟩ := h.armed (by simpa using armed)
  · exact free held
  · simp [host] at run

/-- Every effect of a host-mode command keeps the invariants. -/
theorem CommandEffect.keeps_inv {s : State} {r : Result} (he : CommandEffect s r) (h : s.Inv) (free : s.hold = .none)
    (host : s.run = false) : ∃ t, r = .next t ∧ t.Inv := by
  have notRun {p : Prop} : s.run = true → p := by simp [host]
  have notWaiting := h.waiting_of_free (by simp [free]) host
  cases he with
  | configFailed un =>
    have failed : { s with cfgState := .failed }.Inv := { h with
      config := nofun
      lentConfigured := fun lent => by simpa [un] using h.lentConfigured lent
      running := notRun }
    exact failed.raised _
  | configured d t l p un ok =>
    simp only [cfgOk, Bool.and_eq_true, decide_eq_true_eq] at ok
    obtain ⟨⟨low, high⟩, common⟩ := ok
    have notLent : s.pstate = .idle := by
      by_contra lent
      simpa [un] using h.lentConfigured lent
    exact ⟨_, rfl, { h with
      topBit := high
      config := fun _ => ⟨low, common⟩
      lentConfigured := fun _ => rfl
      cursor := by simp [notLent]
      running := notRun }⟩
  | delaySet d owned =>
    exact ⟨_, rfl, { h with cursor := by simp [(not_lent_iff s).1 owned] }⟩
  | written b owned wf =>
    exact ⟨_, rfl, { h with buffer := wf h.buffer, latch := by simp [(not_lent_iff s).1 owned] }⟩
  | swept owned => exact (h.answer _ _).swept ((not_lent_iff s).1 owned)
  | started n valid nonzero _ =>
    exact ⟨_, rfl, (h.playbackBegun valid nonzero free notRun (by simp [notWaiting])).answer _ _⟩
  | stopIssued lent =>
    exact ⟨_, rfl, { h with
      running := notRun
      armed := by simp [notWaiting]
      heldStop := fun _ => ⟨lent, host⟩ }⟩
  | waitIssued =>
    exact ⟨_, rfl, { h with
      running := notRun
      armed := fun _ => .inl rfl
      heldStop := nofun }⟩
  | runEntered n valid nonzero idle =>
    exact ⟨_, rfl, { h with
      running := fun _ => ⟨valid, (h.firstTick valid nonzero).1, free⟩
      phaseOwned := fun _ _ => idle
      phaseLent := fun _ phase => by simp at phase
      armed := by simp [notWaiting]
      heldStop := by simp [free] }⟩

/-- R170: STOP is held in host mode alone, with the timer not armed. -/
theorem State.Inv.completeStop {s : State} (h : s.Inv) (held : s.hold = .hStop) (done : s.pstate = .done) :
    (completeStop s).Inv := by
  have host : s.run = false := (h.heldStop held).2
  have expired := h.waiting_of_free (by simp [held]) host
  exact (h.released done expired rfl (aphase := s.aphase) (by simp [host])).answer _ _

/-- R195: once the timer has expired nothing is armed, so WAIT's hold may be lifted. -/
theorem State.Inv.completeWait {s : State} (h : s.Inv) (expired : s.waiting = false) : (completeWait s).Inv := by
  have free : { s with hold := .none }.Inv := { h with
    running := fun run => let ⟨valid, rpt, _⟩ := h.running run; ⟨valid, rpt, rfl⟩
    armed := fun armed => by simp [expired] at armed
    heldStop := nofun }
  exact free.answer _ _

/-! TIMER and ANIMATOR. -/

/-- R196: no invariant asks the timer to be armed. -/
theorem State.Inv.timerStep {s : State} (h : s.Inv) : (timerStep s).Inv := { h with armed := nofun }

/-- R199: I7 gives A_START a valid configuration and a pass to play. -/
theorem State.Inv.frameStarted {s : State} (h : s.Inv) (run : s.run = true) :
    { beginPlayback s.arpt s with waiting := true, aphase := .aWait }.Inv := by
  obtain ⟨valid, rpt, free⟩ := h.running run
  exact h.playbackBegun valid (by bv_omega) free (fun _ => rfl) (fun _ => run)

/-- R200: A_WAIT leaves the buffer lent. -/
theorem State.Inv.frameWaited {s : State} (h : s.Inv) (phase : s.aphase = .aWait) (expired : s.waiting = false) :
    { s with aphase := .aStop }.Inv :=
  { h with
    phaseOwned := fun _ owned => by simp at owned
    phaseLent := fun run _ => h.phaseLent run (.inl phase)
    armed := fun armed => by simp [expired] at armed }

/-- I9: in RUN mode the timer is armed in A_WAIT alone. -/
theorem State.Inv.waiting_of_run {s : State} (h : s.Inv) (run : s.run = true) (phase : s.aphase ≠ .aWait) :
    s.waiting = false := by
  obtain ⟨_, _, free⟩ := h.running run
  by_contra armed
  obtain held | ⟨_, waits⟩ := h.armed (by simpa using armed)
  · simp [free] at held
  · exact phase waits

/-- R201: in A_STOP's phase HOST is not held and the timer is not armed. -/
theorem State.Inv.frameStopped {s : State} (h : s.Inv) (run : s.run = true) (phase : s.aphase = .aStop)
    (done : s.pstate = .done) : { releasePlayback s with aphase := .aMutate }.Inv := by
  obtain ⟨_, _, free⟩ := h.running run
  exact h.released done (h.waiting_of_run run (by simp [phase])) free (fun _ => rfl)

/-- R202: A_MUTATE sweeps the buffer, which is its owner's in this phase and the next. -/
theorem State.Inv.frameMutated {s : State} (h : s.Inv) (run : s.run = true) (phase : s.aphase = .aMutate) :
    ∃ t, sweep { s with aphase := .aStart } = .next t ∧ t.Inv := by
  have expired := h.waiting_of_run run (by simp [phase])
  have idle : s.pstate = .idle := h.phaseOwned run (.inr phase)
  have start : { s with aphase := .aStart }.Inv := { h with
    phaseOwned := fun _ _ => idle
    phaseLent := fun _ lent => by simp at lent
    armed := fun armed => by simp [expired] at armed }
  exact start.swept idle

/-! Every step. -/

/-- Every turn but a reset, from a state of the invariants, answers a next state that meets them. -/
theorem TurnEffect.keeps_inv {s : State} {r : Result} (he : TurnEffect s r) (h : s.Inv) : ∃ t, r = .next t ∧ t.Inv := by
  cases he with
  | idle => exact ⟨_, rfl, h⟩
  | answered v => exact ⟨_, rfl, h.answer _ _⟩
  | raised c => exact h.raised c
  | command free host effect => exact effect.keeps_inv h free host
  | stopCompleted held done => exact ⟨_, rfl, h.completeStop held done⟩
  | waitCompleted _ expired => exact ⟨_, rfl, h.completeWait expired⟩
  | delayTicked playing delay => exact ⟨_, rfl, h.delayTick playing delay⟩
  | wordPlayed w playing symbol fetch => exact ⟨_, rfl, h.playWord playing symbol fetch⟩
  | fetchFailed f playing symbol fetch => exact absurd fetch (h.fetchDuty_ne_none playing symbol)
  | expired => exact ⟨_, rfl, h.timerStep⟩
  | frameStarted run _ => exact ⟨_, rfl, h.frameStarted run⟩
  | frameWaited _ phase expired => exact ⟨_, rfl, h.frameWaited phase expired⟩
  | frameStopped run phase done => exact ⟨_, rfl, h.frameStopped run phase done⟩
  | frameMutated run phase => exact h.frameMutated run phase

/-- Every step, reset included, from a state of the invariants, answers a next state that meets them. -/
theorem step_answers_inv {s : State} (h : s.Inv) : ∃ t, step s = .next t ∧ t.Inv := by
  by_cases reset : (takeTurn s).1 = .reset
  · exact ⟨resetStep (takeTurn s).2, step_of_turn (Prod.ext reset rfl), resetMeetsTheInvariants.inputs _ _ _⟩
  · obtain ⟨cmds, sched, turns, effect⟩ := step_effect reset
    exact effect.keeps_inv (h.inputs cmds sched turns)

/-- Settles O45: each effect a turn can have keeps the invariants, and a reset brings them about. -/
theorem everyStepKeepsTheInvariants : Obligations.EveryStepKeepsTheInvariants := by
  intro s t h hs
  obtain ⟨t', hs', h'⟩ := step_answers_inv h
  obtain rfl : t' = t := next_inj.1 (hs'.symm.trans hs)
  exact h'

/-- Settles O46: I2 and I5 leave no access to a missing entry, the only fault. -/
theorem theMachineNeverStops : Obligations.TheMachineNeverStops := fun _ h =>
  let ⟨t, hs, _⟩ := step_answers_inv h
  ⟨t, hs⟩

end Sys2Proof.Machine
end

section
/-! PROOFS. What no step but a reset changes: the lent buffer (10_state.md R45 I10), a set flag (R33), RUN mode (R31). -/

namespace Sys2Proof.Machine

/-! PLAYER changes only the playback cursor, the latch and the pin. -/

/-- `t` is `s` up to the playback cursor, the latch and the pin (R27, R29). -/
def SameOutsidePlayback (s t : State) : Prop :=
  t = { s with
    pstate := t.pstate, passRem := t.passRem, idx := t.idx, tick := t.tick, indly := t.indly, dly := t.dly, cur := t.cur,
    dout := t.dout }

theorem endPass_same (s : State) : SameOutsidePlayback s (endPass s) := by
  obtain ⟨_, e⟩ | ⟨_, e⟩ := endPass_cases s <;> rw [e] <;> rfl

theorem advance_same (s : State) : SameOutsidePlayback s (advance s) := by
  obtain ⟨_, e⟩ | ⟨_, _, e⟩ | ⟨_, _, _, e⟩ | ⟨_, _, _, e⟩ := advance_cases s <;> rw [e]
  · rfl
  · rfl
  · rfl
  · exact endPass_same s

theorem playWord_same (w : Duty) (s : State) : SameOutsidePlayback s (playWord w s) :=
  advance_same { s with cur := w, dout := level w s.tick.toNat }

theorem delayTick_same (s : State) : SameOutsidePlayback s (delayTick s) := by
  obtain ⟨_, e⟩ | ⟨_, e⟩ := delayTick_cases s <;> rw [e]
  · rfl
  · exact endPass_same { s with dout := false }

theorem SameOutsidePlayback.sb {s t : State} (h : SameOutsidePlayback s t) : t.sb = s.sb := by rw [h]

theorem SameOutsidePlayback.flag {s t : State} (h : SameOutsidePlayback s t) (c : Cause) : t.flag c = s.flag c := by
  rw [h]; rfl

theorem SameOutsidePlayback.run_arpt {s t : State} (h : SameOutsidePlayback s t) (run : s.run = true) :
    t.run = true ∧ t.arpt = s.arpt := by
  rw [h]; exact ⟨run, rfl⟩

/-! The lent buffer. -/

/-- R67: the commands that write the buffer have found it owned. -/
theorem CommandEffect.sb_of_lent {s t : State} {r : Result} (he : CommandEffect s r) (hr : r = .next t)
    (lent : s.lent = true) : t.sb = s.sb := by
  have notOwned : s.lent ≠ false := by simp [lent]
  cases he with
  | written _ owned => exact absurd owned notOwned
  | swept owned => exact absurd owned notOwned
  | _ => cases hr; rfl

/-- I10: the sweep of A_MUTATE is the only write without a check, and its phase is owned (I8). -/
theorem TurnEffect.sb_of_lent {s t : State} {r : Result} (he : TurnEffect s r) (hr : r = .next t) (h : s.Inv)
    (lent : s.lent = true) : t.sb = s.sb := by
  cases he with
  | raised c => rw [raise_next hr]; simp
  | command _ _ effect => exact effect.sb_of_lent hr lent
  | fetchFailed => cases hr
  | delayTicked => cases hr; exact (delayTick_same s).sb
  | wordPlayed w => cases hr; exact (playWord_same w s).sb
  | frameMutated run phase => exact absurd (h.phaseOwned run (.inr phase)) ((lent_iff s).1 lent)
  | _ => cases hr; rfl

/-- Settles O47: every writer of the buffer has checked that it is owned or is in an owned phase. -/
theorem noMutationWhileLent : Obligations.NoMutationWhileLent := by
  intro s t h lent noReset hs
  obtain ⟨cmds, sched, turns, effect⟩ := step_effect noReset
  exact effect.sb_of_lent hs (h.inputs cmds sched turns) lent

/-! The sticky flags. -/

/-- R33: setting the flag of a cause leaves every set flag set. -/
theorem setFlag_flag {s : State} {c : Cause} (d : Cause) (isSet : s.flag c = true) : (s.setFlag d).flag c = true := by
  cases c <;> simp_all [State.flag]

/-- R224: so does raising a cause, whose answer is no flag. -/
theorem raise_flag {s t : State} {c d : Cause} (hr : raise d s = .next t) (isSet : s.flag c = true) : t.flag c = true := by
  rw [raise_next hr]
  exact setFlag_flag d isSet

theorem sweep_flag {s t : State} (hr : sweep s = .next t) (c : Cause) : t.flag c = s.flag c := by
  obtain ⟨_, _, rfl⟩ := sweep_next hr
  rfl

theorem CommandEffect.keeps_flag {s t : State} {r : Result} (he : CommandEffect s r) (hr : r = .next t) {c : Cause}
    (isSet : s.flag c = true) : t.flag c = true := by
  cases he with
  | configFailed => exact raise_flag hr isSet
  | swept => exact (sweep_flag hr c).trans isSet
  | _ => cases hr; exact isSet

theorem TurnEffect.keeps_flag {s t : State} {r : Result} (he : TurnEffect s r) (hr : r = .next t) {c : Cause}
    (isSet : s.flag c = true) : t.flag c = true := by
  cases he with
  | raised => exact raise_flag hr isSet
  | command _ _ effect => exact effect.keeps_flag hr isSet
  | fetchFailed => cases hr
  | delayTicked => cases hr; exact ((delayTick_same s).flag c).trans isSet
  | wordPlayed w => cases hr; exact ((playWord_same w s).flag c).trans isSet
  | frameMutated => exact (sweep_flag hr c).trans isSet
  | _ => cases hr; exact isSet

/-- Settles O49: a turn sets the flag of a raised cause or leaves the flags alone. -/
theorem stickyFlagsStaySet : Obligations.StickyFlagsStaySet := by
  intro s t noReset hs c isSet
  obtain ⟨cmds, sched, turns, effect⟩ := step_effect noReset
  exact effect.keeps_flag hs isSet

/-! RUN mode. -/

/-- R203: in RUN mode no command has an effect of its own, and the other turns leave RUN and ARPT alone. -/
theorem TurnEffect.keeps_run {s t : State} {r : Result} (he : TurnEffect s r) (hr : r = .next t) (run : s.run = true) :
    t.run = true ∧ t.arpt = s.arpt := by
  cases he with
  | raised c => rw [raise_next hr]; simp [run]
  | command _ host => simp [host] at run
  | fetchFailed => cases hr
  | delayTicked => cases hr; exact (delayTick_same s).run_arpt run
  | wordPlayed w => cases hr; exact (playWord_same w s).run_arpt run
  | frameMutated =>
    obtain ⟨_, _, rfl⟩ := sweep_next hr
    exact ⟨run, rfl⟩
  | _ => cases hr; exact ⟨run, rfl⟩

/-- Settles O52: the commands are locked out, and ANIMATOR has no step that leaves RUN mode. -/
theorem runModeIsLeftOnlyByReset : Obligations.RunModeIsLeftOnlyByReset := by
  intro s t run noReset hs
  obtain ⟨cmds, sched, turns, effect⟩ := step_effect noReset
  exact effect.keeps_run hs run

end Sys2Proof.Machine
end

section
/-! PROOFS. Encoding (30_encoding.md): a command's word as its fields side by side, decode and encode inverse to each other, and
the opcode table. -/

namespace Sys2Proof.Machine

/-! Fields side by side. -/

/-- `high` above `low`, at a total width written as one number, so that the lemmas on it apply to a 32-bit word. -/
def join {v w t : Nat} (high : BitVec v) (low : BitVec w) (width : v + w = t := by rfl) : BitVec t :=
  (high ++ low).cast width

section
variable {v w t lo n : Nat} (high : BitVec v) (low : BitVec w) (width : v + w = t)

@[simp] theorem field_join_low (h : lo + n ≤ w) : field (join high low width) lo n = field low lo n :=
  BitVec.extractLsb'_cast.trans (BitVec.extractLsb'_append_eq_of_add_le h)

@[simp] theorem field_join_high (h : w ≤ lo) : field (join high low width) lo n = field high (lo - w) n :=
  BitVec.extractLsb'_cast.trans (BitVec.extractLsb'_append_eq_of_le h)

@[simp] theorem getElem_join (k : Nat) (h : k < t) :
    (join high low width)[k] = if h' : k < w then low[k] else high[k - w] := by
  simp only [join, BitVec.getElem_cast, BitVec.getElem_append]

/-- Two fields of one value that meet are one field of it. -/
theorem join_field {s lo₁ n₁ lo₂ n₂ : Nat} (x : BitVec s) (meet : lo₂ = lo₁ + n₁) (width : n₂ + n₁ = t) :
    join (field x lo₂ n₂) (field x lo₁ n₁) width = field x lo₁ t := by
  subst width
  exact BitVec.extractLsb'_append_extractLsb'_eq_extractLsb' meet

/-- A mask acts on each field by itself. -/
theorem join_and (m : BitVec t) :
    join high low width &&& m = join (high &&& field m w v) (low &&& field m 0 w) width := by
  subst width
  exact (congrArg (high ++ low &&& ·) BitVec.extractLsb'_append_extractLsb'.symm).trans BitVec.and_append

end

theorem ofBool_getElem {t k : Nat} (x : BitVec t) (h : k < t) : BitVec.ofBool x[k] = field x k 1 := by
  ext j hj
  obtain rfl : j = 0 := by omega
  simp [h]

/-! encode, row by row (R97 to R107). -/

@[simp] theorem encode_configure (div : BitVec 3) (top : BitVec 16) (load : Load) (pin : BitVec 8) :
    encode (.configure div top load pin) =
      .cmd32 (join (join (t := 16) (join (t := 8) (join (t := 7) 1#4 div) (BitVec.ofBool load.bit)) pin) top) := rfl

@[simp] theorem encode_setdelay (delay : BitVec 24) :
    encode (.setdelay delay) = .cmd32 (join (join (t := 8) 2#4 0#4) delay) := rfl

@[simp] theorem encode_encode (color : Color) : encode (.encode color) = .cmd32 (join (join (t := 8) 3#4 0#4) color) := rfl

@[simp] theorem encode_write (idx : BitVec 5) (bit : Bool) :
    encode (.write idx bit) =
      .cmd32 (join (join (t := 31) (join (t := 24) (join (t := 19) 4#4 0#15) idx) 0#7) (BitVec.ofBool bit)) := rfl

@[simp] theorem encode_read (idx : BitVec 5) : encode (.read idx) = .cmd32 (join (join (t := 27) 5#4 0#23) idx) := rfl

@[simp] theorem encode_rdcsr (n : BitVec 3) : encode (.rdcsr n) = .cmd32 (join (join (t := 29) 6#4 0#25) n) := rfl

@[simp] theorem encode_start (rpt : BitVec 16) : encode (.start rpt) = .cmd32 (join (join (t := 16) 7#4 0#12) rpt) := rfl

@[simp] theorem encode_stop : encode .stop = .cmd32 (join 8#4 0#28) := rfl

@[simp] theorem encode_wait : encode .wait = .cmd32 (join 9#4 0#28) := rfl

@[simp] theorem encode_astep : encode .astep = .cmd32 (join 10#4 0#28) := rfl

@[simp] theorem encode_arun (rpt : BitVec 16) : encode (.arun rpt) = .cmd32 (join (join (t := 16) 11#4 0#12) rpt) := rfl

/-! decode and encode. -/

@[simp] theorem ofBit_bit (load : Load) : Load.ofBit load.bit = load := by cases load <;> rfl

@[simp] theorem bit_ofBit (b : Bool) : (Load.ofBit b).bit = b := by cases b <;> rfl

/-- The two checks of R108 let the instruction through unchanged or refuse it. -/
theorem checked_eq_ok {reservedZero : Bool} {i j : Instr} :
    checked reservedZero i = .ok j ↔ reservedZero = true ∧ i.wellFormed = true ∧ i = j := by
  unfold checked
  split_ifs <;> simp_all

/-- Settles O2: OP selects the command's own row, whose every field is read back from where `encode` put it; a duty word is
one of three constants. -/
theorem decodeOfEncodeIsTheInstruction : Obligations.DecodeOfEncodeIsTheInstruction := by
  intro i wf
  cases i with
  | sym0 | sym1 | symr => rfl
  | _ => simp_all [decode, decodeCommand, checked_eq_ok, -BitVec.extractLsb'_toNat]

theorem ofNat_of_field_toNat {w : Word} {lo n k : Nat} (h : (field w lo n).toNat = k) : BitVec.ofNat n k = field w lo n := by
  rw [← h, BitVec.ofNat_toNat, BitVec.setWidth_eq]

/-- The word is put together again from its OP, its reserved bits, which are 0, and its operands. -/
theorem encode_of_decodeCommand {w : Word} {i : Instr} (h : decodeCommand w = .ok i) :
    i.wellFormed = true ∧ encode i = .cmd32 w := by
  unfold decodeCommand at h
  split at h
  case h_12 => cases h
  case h_1 op =>
    obtain ⟨-, wf, rfl⟩ := checked_eq_ok.mp h
    exact ⟨wf, by simp [ofNat_of_field_toNat op, ofBool_getElem, join_field]⟩
  all_goals
    rename_i op
    obtain ⟨reserved, wf, rfl⟩ := checked_eq_ok.mp h
    simp only [Bool.and_eq_true, beq_iff_eq, BitVec.ofNat_eq_ofNat] at reserved
    exact ⟨wf, by simp [ofNat_of_field_toNat op, ← reserved, ofBool_getElem, join_field]⟩

theorem encode_of_decodeDuty {w : Duty} {i : Instr} (h : decodeDuty w = .ok i) :
    i.wellFormed = true ∧ encode i = .duty16 w := by
  unfold decodeDuty at h
  split_ifs at h with is0 is1 isR <;> cases h
  · exact ⟨rfl, congrArg Code.duty16 is0.symm⟩
  · exact ⟨rfl, congrArg Code.duty16 is1.symm⟩
  · exact ⟨rfl, congrArg Code.duty16 isR.symm⟩

/-- Settles O3, for each form of word. -/
theorem decodedWordIsItsOnlyEncoding : Obligations.DecodedWordIsItsOnlyEncoding := fun c _ h =>
  match c with
  | .cmd32 _ => encode_of_decodeCommand h
  | .duty16 _ => encode_of_decodeDuty h

/-! The opcode table. -/

theorem fits_iff {r : CommandRow} {w : Word} : r.fits w = true ↔ w &&& r.mask = r.matchBits ∧ r.range w = true := by
  simp [CommandRow.fits]

/-- The word of a well-formed command fits the command's row: the mask leaves OP and the reserved bits. -/
theorem encode_fits {i : Instr} (wf : i.wellFormed = true) :
    ∀ w, encode i = .cmd32 w → ∃ r ∈ commandTable, r.op = rowOf i ∧ r.fits w = true := by
  cases i with
  | sym0 | sym1 | symr => nofun
  | _ =>
    simp_all [commandTable, rowOf, fits_iff, join_and, field, Instr.wellFormed, -BitVec.extractLsb'_toNat]
    -- Both sides are closed words now.
    rfl

/-- A field that lies under the mask of a row stands in a fitting word as in the row's match. -/
theorem field_of_fits {r : CommandRow} {w : Word} (h : r.fits w = true) (lo n : Nat)
    (masked : field r.mask lo n = BitVec.allOnes n) : field w lo n = field r.matchBits lo n :=
  calc field w lo n = field w lo n &&& field r.mask lo n := by rw [masked, BitVec.and_allOnes]
    _ = field (w &&& r.mask) lo n := BitVec.extractLsb'_and.symm
    _ = field r.matchBits lo n := by rw [(fits_iff.mp h).1]

/-- A word that fits a row of the table decodes to a command of that row: in each row OP and the reserved bits lie under the
mask, so `field_of_fits` gives their values. -/
theorem decode_of_fits {r : CommandRow} (hr : r ∈ commandTable) {w : Word} (h : r.fits w = true) :
    ∃ i, decode (.cmd32 w) = .ok i ∧ rowOf i = r.op := by
  have range := (fits_iff.mp h).2
  have masked := field_of_fits h
  simp only [commandTable, List.mem_cons, List.not_mem_nil, or_false] at hr
  rcases hr with rfl | rfl | rfl | rfl | rfl | rfl | rfl | rfl | rfl | rfl | rfl
  all_goals simp_all [decode, decodeCommand, checked_eq_ok, rowOf, Instr.wellFormed, field]

/-- Settles O4: what decodes is an encoding and fits its row; a word that fits two rows decodes to a command of each, and it
decodes to one instruction only. -/
theorem commandWordsDecodeByTheTable : Obligations.CommandWordsDecodeByTheTable := by
  refine fun w => ⟨fun n => ⟨?_, ?_⟩, fun r hr q hq fitsR fitsQ => ?_⟩
  · rintro ⟨i, hi, rfl⟩
    obtain ⟨wf, word⟩ := encode_of_decodeCommand hi
    exact encode_fits wf w word
  · rintro ⟨r, hr, rfl, fits⟩
    exact decode_of_fits hr fits
  · obtain ⟨i, hi, rowR⟩ := decode_of_fits hr fitsR
    obtain ⟨j, hj, rowQ⟩ := decode_of_fits hq fitsQ
    obtain rfl : i = j := Except.ok.inj (hi.symm.trans hj)
    exact rowR.symm.trans rowQ

/-- Settles O1: the decoder evaluated on each word. -/
theorem writtenWordsDecode : Obligations.WrittenWordsDecode := by
  unfold Obligations.WrittenWordsDecode
  decide

end Sys2Proof.Machine
end

section
/-! PROOFS. The timing table (40_timing_table.md): the pulse shape of a duty word (R124, R125), and one tick of the duty words
SYM0, SYM1 and SYMR (R121, R176, R178). -/

namespace Sys2Proof.Machine

/-! The pulse shape. -/

/-- R124, POL = 1: high for the first DUTY ticks. -/
theorem level_activeHigh {w : Duty} (pol : w.getLsbD 15 = true) (t : Nat) :
    level w t = decide (t < (field w 0 15).toNat) := if_pos pol

/-- R124, POL = 0: low for the first DUTY ticks. -/
theorem level_activeLow {w : Duty} (pol : w.getLsbD 15 = false) (t : Nat) :
    level w t = !decide (t < (field w 0 15).toNat) := if_neg (ne_true_of_eq_false pol)

@[simp] theorem sym_length (w : Duty) (n : Nat) : (sym w n).length = n := by simp [sym]

theorem sym_getElem? (w : Duty) {n t : Nat} (h : t < n) : (sym w n)[t]? = some (level w t) := by simp [sym, h]

/-- R125, POL = 1: a symbol is its pulse of DUTY ticks, then low. -/
theorem sym_activeHigh {w : Duty} (pol : w.getLsbD 15 = true) (low : Nat) :
    sym w ((field w 0 15).toNat + low) = List.replicate (field w 0 15).toNat true ++ List.replicate low false := by
  rw [sym, List.range_add, List.map_append, List.map_map]
  congr 1
  · exact List.eq_replicate_iff.2 ⟨by simp, by simp [level_activeHigh pol]⟩
  · exact List.eq_replicate_iff.2 ⟨by simp, by simp [level_activeHigh pol]⟩

/-- Settles O30: the level by polarity, and the three reference symbols as pulses of 7, 13 and 0 ticks. -/
theorem levelIsThePulseShape : Obligations.LevelIsThePulseShape := by
  refine ⟨fun w t => ⟨fun pol => ?_, fun pol => ?_⟩, fun w n => ⟨sym_length w n, fun _ => sym_getElem? w⟩, ?_, ?_, ?_⟩
  · simp [level_activeHigh pol]
  · simp [level_activeLow pol]
  · exact sym_activeHigh (w := 0x8007) rfl 13
  · exact sym_activeHigh (w := 0x800D) rfl 7
  · exact sym_activeHigh (w := 0x8000) rfl 20

/-! The moves of the cursor in a symbol, each under its condition (R176, R178), for any duty word. -/

section
variable {s : State} (w : Duty)

theorem playWord_nextTick (inside : s.tick.toNat + 1 < s.top.toNat) :
    playWord w s = { s with cur := w, dout := level w s.tick.toNat, tick := s.tick + 1 } := if_pos inside

variable (last : s.top.toNat ≤ s.tick.toNat + 1)
include last

theorem playWord_nextEntry (more : s.idx.toNat < 24) :
    playWord w s = { s with cur := w, dout := level w s.tick.toNat, tick := 0, idx := s.idx + 1 } :=
  (if_neg (Nat.not_lt.2 last)).trans (if_pos more)

variable (entry : s.idx = 24)
include entry

/-- After the last tick of entry 24 come the end delay, if there is one, and the end of the pass. -/
theorem playWord_lastEntry :
    playWord w s = if 0 < s.endDelay.toNat then
        { s with cur := w, dout := level w s.tick.toNat, tick := 0, indly := true, dly := s.endDelay }
      else endPass { s with cur := w, dout := level w s.tick.toNat } :=
  (if_neg (Nat.not_lt.2 last)).trans (if_neg (by simp [entry]))

theorem playWord_endDelay (delay : s.endDelay ≠ 0) :
    playWord w s =
      { s with cur := w, dout := level w s.tick.toNat, tick := 0, indly := true, dly := s.endDelay } :=
  (playWord_lastEntry w last entry).trans (if_pos (by bv_omega))

theorem playWord_endPass (noDelay : s.endDelay = 0) :
    playWord w s = endPass { s with cur := w, dout := level w s.tick.toNat } :=
  (playWord_lastEntry w last entry).trans (if_neg (by simp [noDelay]))

theorem playWord_nextPass (noDelay : s.endDelay = 0) (more : 1 < s.passRem.toNat) :
    playWord w s = { s with
      cur := w, dout := level w s.tick.toNat, tick := 0, idx := 0, indly := false, dly := 0, passRem := s.passRem - 1 } :=
  (playWord_endPass w last entry noDelay).trans (if_pos more)

theorem playWord_done (noDelay : s.endDelay = 0) (final : s.passRem.toNat ≤ 1) :
    playWord w s = { s with
      cur := w, dout := false, tick := 0, idx := 0, indly := false, dly := 0, passRem := 0, pstate := .done } :=
  (playWord_endPass w last entry noDelay).trans (if_neg (Nat.not_lt.2 final))

end

/-- Settles O31: in a symbol each of the three instructions plays its word, whose pulse is its duty, and the cursor's moves
are those of any word. -/
theorem dutyWordsPlayOneTick : Obligations.DutyWordsPlayOneTick := by
  intro s i w d playing symbol _ _ row
  have plays : exec i s = .next (playWord w s) := by
    obtain ⟨rfl, rfl, -⟩ | ⟨rfl, rfl, -⟩ | ⟨rfl, rfl, -⟩ := row <;> exact playSymbol_of_playing _ playing symbol
  have pulse : level w s.tick.toNat = decide (s.tick.toNat < d) := by
    obtain ⟨-, rfl, rfl⟩ | ⟨-, rfl, rfl⟩ | ⟨-, rfl, rfl⟩ := row <;> exact level_activeHigh rfl _
  rw [plays, ← pulse]
  exact ⟨fun inside => congrArg _ (playWord_nextTick w inside),
    fun last more => congrArg _ (playWord_nextEntry w last more),
    fun last entry delay => congrArg _ (playWord_endDelay w last entry delay),
    fun last entry noDelay more => congrArg _ (playWord_nextPass w last entry noDelay more),
    fun last entry noDelay final => congrArg _ (playWord_done w last entry noDelay final)⟩

end Sys2Proof.Machine
end

section
/-! PROOFS. BitEncoder and the buffer access commands (41_bit_encoder_and_buffer.md): ENCODE, WRITE, READ (R133 to R135), the
color of a buffer (R132, R137), and the register views RDCSR answers (R136, R34 to R41). -/

namespace Sys2Proof.Machine

/-! The duty words as the statements write them (R121). -/

theorem code_eq_dutyNumber (b : Bool) : code b = dutyNumber b := by cases b <;> rfl

/-! The commands past their checks, and what a check raises (R229). -/

section
variable {s : State} (host : s.run = false)
include host

theorem exec_encode_owned (c : Color) (owned : s.lent = false) :
    exec (.encode c) s = .next { s with sb := encodeColor c, resp := okAnswer } :=
  (inHostMode_host _ host).trans (whileOwned_owned _ owned)

theorem exec_encode_lent (c : Color) (lent : s.lent = true) : exec (.encode c) s = raise .ownership s :=
  (inHostMode_host _ host).trans (whileOwned_lent _ lent)

variable {i : BitVec 5} (below : i.toNat ≤ 23) (bit : Bool)
include below

theorem exec_write_host :
    exec (.write i bit) s = whileOwned s (storeEntry i.toNat (code bit) s.answerOk) :=
  (if_neg (by omega)).trans (inHostMode_host _ host)

theorem exec_write_owned (owned : s.lent = false) :
    ∃ x, writeEntry s.sb i.toNat (code bit) = some x ∧
      exec (.write i bit) s = .next { s with sb := x, resp := okAnswer } :=
  have entry : i.toNat < Config.nent := Nat.lt_of_le_of_lt below (by decide)
  ⟨_, writeEntry_of_lt _ _ entry, (exec_write_host host below bit).trans <|
    (whileOwned_owned _ owned).trans (storeEntry_of_lt _ _ entry)⟩

theorem exec_write_lent (lent : s.lent = true) : exec (.write i bit) s = raise .ownership s :=
  (exec_write_host host below bit).trans (whileOwned_lent _ lent)

end

/-- Settles O19: past its checks ENCODE stores the encoded color, whose entries are those of R131. -/
theorem encodeWritesTheColor : Obligations.EncodeWritesTheColor := by
  refine fun s c host => ⟨fun owned => ⟨_, exec_encode_owned host c owned, fun i hi => ?_, ?_, rfl⟩,
    fun lent => exec_encode_lent host c lent⟩
  · rw [readEntry_encodeColor c hi, code_eq_dutyNumber]
  · exact readEntry_encodeColor_reset c

/-- Settles O20: past its checks WRITE stores one entry, and a read after a write sees that entry alone changed. -/
theorem writePatchesOneEntry : Obligations.WritePatchesOneEntry := by
  refine fun s i b => ⟨fun host below owned => ?_, fun host below lent => exec_write_lent host below b lent,
    fun above => if_pos above⟩
  obtain ⟨x, write, answers⟩ := exec_write_owned host below b owned
  have reads := readEntry_writeEntry write
  refine ⟨_, answers, ?_, fun j other => ?_, rfl⟩
  · rw [reads, if_pos rfl, code_eq_dutyNumber]
  · rw [reads, if_neg other]

/-- Settles O21: READ answers the entry that stands at its index, and the buffer invariant says which word that is. -/
theorem readAnswersTheEntry : Obligations.ReadAnswersTheEntry := by
  intro s i
  obtain ⟨above, raises⟩ | ⟨below, w, entry, answers⟩ := execRead_cases i s
  · exact ⟨fun _ => by omega, fun _ => raises⟩
  · refine ⟨fun _ => ⟨w, entry, ?_, fun wf => ⟨?_, fun color => ?_⟩⟩, fun _ => by omega⟩
    · rw [BitVec.ofNat_toNat]
      exact answers
    · rintro rfl
      exact Option.some.inj (entry.symm.trans ((wf_iff _).1 wf).1)
    · have lt : i.toNat < 24 := by bv_omega
      exact (((wf_iff _).1 wf).2 _ lt).imp (fun h => Option.some.inj (entry.symm.trans h))
        fun h => Option.some.inj (entry.symm.trans h)

/-! The color of a buffer (R132). -/

/-- A buffer is its entries. -/
theorem buffer_ext {a b : Buffer} (h : ∀ i, i ≤ 24 → readEntry a i = readEntry b i) : a = b :=
  Vector.ext fun i hi => by simpa [readEntry, hi] using h i (Nat.le_of_lt_succ hi)

theorem colorBit_encodeColor (c : Color) {k : Nat} (hk : k < 24) : colorBit (encodeColor c) k = some (c.getLsbD k) := by
  have back : 23 - (23 - k) = k := by omega
  rw [colorBit, readEntry_encodeColor c (by omega), back, Option.bind_some, bitOf_code]

theorem decodeBuffer_encodeColor (c : Color) : decodeBuffer (encodeColor c) = some c := by
  rw [decodeBuffer, if_pos (encodeColor_wf c)]
  refine congrArg some (BitVec.eq_of_getElem_eq fun k hk => ?_)
  simp [colorBit_encodeColor c hk, hk]

/-- Every buffer of the invariant is the encoding of a color: its entries are CODE of the color's bits. -/
theorem exists_encodeColor_of_wf {b : Buffer} (wf : b.wf = true) : ∃ d, b = encodeColor d := by
  obtain ⟨last, entries⟩ := (wf_iff b).1 wf
  have coded : ∀ i : Fin 24, ∃ bit, readEntry b i = some (code bit) := fun i =>
    (entries i i.isLt).elim (fun zero => ⟨false, zero⟩) fun one => ⟨true, one⟩
  choose bit reads using coded
  refine ⟨BitVec.ofFnLE fun k => bit k.rev, buffer_ext fun i hi => ?_⟩
  obtain lt | rfl := Nat.lt_or_eq_of_le hi
  · have back : (⟨23 - i, by omega⟩ : Fin 24).rev = ⟨i, lt⟩ := Fin.ext (by simp only [Fin.val_rev]; omega)
    rw [readEntry_encodeColor _ lt, BitVec.getLsbD_ofFnLE, dif_pos (by omega), back]
    exact reads ⟨i, lt⟩
  · rw [last, readEntry_encodeColor_reset]

/-- decode is the inverse of encode, and undefined off its range (R132). -/
theorem decodeBuffer_eq_some {b : Buffer} {d : Color} : decodeBuffer b = some d ↔ b = encodeColor d := by
  refine ⟨fun h => ?_, fun h => h ▸ decodeBuffer_encodeColor d⟩
  have wf : b.wf = true := by
    by_contra notWf
    simp [decodeBuffer, notWf] at h
  obtain ⟨e, rfl⟩ := exists_encodeColor_of_wf wf
  rw [Option.some.inj ((decodeBuffer_encodeColor e).symm.trans h)]

/-- Settles O39: a buffer of the invariant is the encoding of a color, whose bits stand in its entries. -/
theorem colorAndBufferRoundTrip : Obligations.ColorAndBufferRoundTrip := by
  refine ⟨decodeBuffer_encodeColor, fun b wf => ?_⟩
  obtain ⟨d, rfl⟩ := exists_encodeColor_of_wf wf
  exact ⟨d, decodeBuffer_encodeColor d, rfl, fun i hi => ⟨_, readEntry_encodeColor d hi, bitOf_code _⟩⟩

/-- A write of CODE(bit) into an entry replaces that entry's color bit and keeps the others. -/
theorem colorBit_writeEntry {b b' : Buffer} {i : Nat} {bit : Bool} (write : writeEntry b i (code bit) = some b') (k : Nat) :
    colorBit b' k = if 23 - k = i then some bit else colorBit b k := by
  rw [colorBit, readEntry_writeEntry write]
  split
  · exact bitOf_code bit
  · rfl

/-- Settles O40: the written buffer keeps its form, so it encodes a color too, whose bits are the color bits after the write. -/
theorem writeReplacesOneColorBit : Obligations.WriteReplacesOneColorBit := by
  intro s i b d host owned below decodes
  obtain ⟨x, write, answers⟩ := exec_write_owned host below b owned
  have old : s.sb = encodeColor d := decodeBuffer_eq_some.1 decodes
  obtain ⟨e, rfl⟩ := exists_encodeColor_of_wf (writeEntry_wf (by omega) (old ▸ encodeColor_wf d) write)
  have bits : ∀ k, k < 24 → e.getLsbD k = if 23 - k = i.toNat then b else d.getLsbD k := fun k hk => by
    have after := colorBit_writeEntry write k
    rw [old, colorBit_encodeColor e hk, colorBit_encodeColor d hk, ← apply_ite some] at after
    exact Option.some.inj after
  refine ⟨_, e, answers, decodeBuffer_encodeColor e, ?_, fun k other => ?_⟩
  · rw [bits _ (by omega), if_pos (by omega)]
  · obtain hk | hk := Nat.lt_or_ge k 24
    · rw [bits k hk, if_neg (by omega)]
    · rw [BitVec.getLsbD_of_ge e k hk, BitVec.getLsbD_of_ge d k hk]

/-! The register views as their fields side by side (R35 to R41). -/

theorem csrCfg_eq (s : State) :
    csrCfg s = join (join (t := 16) (join (t := 13) (join (t := 12) 0#4 s.pin) (BitVec.ofBool s.load.bit)) s.div) s.top := rfl

theorem csrSeq_eq (s : State) : csrSeq s = join 0#8 s.endDelay := rfl

theorem csrStatus_eq (s : State) :
    csrStatus s =
      join (join (t := 30) (join (t := 29) (join (t := 28) (join (t := 26) (join (t := 25) (join (t := 24) (join (t := 23)
        (join (t := 22) (join (t := 21) (join (t := 20) (join (t := 18) 0#17
          (BitVec.ofBool s.dout)) s.cfgState.bits) (BitVec.ofBool s.fOwn)) (BitVec.ofBool s.eIll)) (BitVec.ofBool s.eBusy))
          (BitVec.ofBool s.eCfg)) (BitVec.ofBool s.indly)) (BitVec.ofBool s.waiting)) s.aphase.bits) (BitVec.ofBool s.run))
          (BitVec.ofBool s.lent)) s.pstate.bits := rfl

theorem csrAnim_eq (s : State) :
    csrAnim s = join (join (t := 27) (join (t := 24) (join (t := 23) s.arpt 0#7) (BitVec.ofBool s.dir.bit)) 0#3) s.pos := rfl

theorem csrCursor_eq (s : State) : csrCursor s = join (join (t := 27) s.passRem 0#11) s.idx := rfl

theorem csrTick_eq (s : State) : csrTick s = join 0#17 s.tick := rfl

theorem csrDelay_eq (s : State) : csrDelay s = join 0#8 s.dly := rfl

/-! The codes in the views (R25, R27, R30, R31). -/

theorem loadBit_iff (l : Load) : l.bit = true ↔ l = .perChannel := by cases l <;> decide

theorem dirBit_iff (d : Dir) : d.bit = true ↔ d = .falling := by cases d <;> decide

theorem pstateBits_iff (p : PState) :
    (p.bits = 0 ↔ p = .idle) ∧ (p.bits = 1 ↔ p = .playing) ∧ (p.bits = 2 ↔ p = .done) := by cases p <;> decide

theorem aphaseBits_iff (p : APhase) :
    (p.bits = 0 ↔ p = .aStart) ∧ (p.bits = 1 ↔ p = .aWait) ∧ (p.bits = 2 ↔ p = .aStop) ∧ (p.bits = 3 ↔ p = .aMutate) := by
  cases p <;> decide

theorem cfgStateBits_iff (c : CfgState) :
    (c.bits = 0 ↔ c = .unconfigured) ∧ (c.bits = 1 ↔ c = .valid) ∧ (c.bits = 2 ↔ c = .failed) := by cases c <;> decide

/-- RDCSR answers the view of its number, whatever the state (R136). -/
theorem exec_rdcsr {s : State} {n : BitVec 3} {v : Word} (view : csr s n.toNat = some v) :
    exec (.rdcsr n) s = .next { s with resp := some { status := .ok, data := v } } := by
  obtain ⟨absent, _⟩ | ⟨u, shown, answers⟩ := execRdcsr_cases n s
  · cases absent.symm.trans view
  · cases shown.symm.trans view
    exact answers

/-- Settles O22: each view's fields are read back from where the view puts them. -/
theorem rdcsrAnswersConfigAndCursorViews : Obligations.RdcsrAnswersConfigAndCursorViews := by
  refine fun s => ⟨⟨csrCfg s, exec_rdcsr rfl, ?_⟩, ⟨csrSeq s, exec_rdcsr rfl, ?_⟩, ⟨csrCursor s, exec_rdcsr rfl, ?_⟩,
    ⟨csrTick s, exec_rdcsr rfl, ?_⟩, ⟨csrDelay s, exec_rdcsr rfl, ?_⟩, rfl⟩
  · simp [csrCfg_eq, loadBit_iff]
  · simp [csrSeq_eq]
  · simp [csrCursor_eq]
  · simp [csrTick_eq]
  · simp [csrDelay_eq]

/-- Settles O23: each field is read back from where the view puts it, and a code tells the values of its field apart. -/
theorem rdcsrAnswersStatusAndAnimationViews : Obligations.RdcsrAnswersStatusAndAnimationViews := by
  refine fun s => ⟨⟨csrStatus s, exec_rdcsr rfl, ?_⟩, ⟨csrAnim s, exec_rdcsr rfl, ?_⟩⟩
  · simpa [csrStatus_eq, lent_iff] using
      ⟨pstateBits_iff s.pstate, aphaseBits_iff s.aphase, cfgStateBits_iff s.cfgState⟩
  · simp [csrAnim_eq, dirBit_iff]

end Sys2Proof.Machine
end

section
/-! PROOFS. HOST's commands of the SequencePlayer (42_sequence_player.md): CONFIGURE, SETDELAY, START and STOP past their
checks, and what a check raises (R151, R153, R155, R160, R170, R171, R229). -/

namespace Sys2Proof.Machine

/-! CONFIGURE and SETDELAY. -/

/-- Settles O17: the three conjuncts of CFG_OK (R153). -/
theorem cfgOkIsTheDefault : Obligations.CfgOkIsTheDefault := by
  intro d t l
  simp [cfgOk, and_assoc]

/-- Settles O16: past the lock-out, in UNCONFIGURED, with arguments CFG_OK accepts. -/
theorem configureLoadsTheRegisters : Obligations.ConfigureLoadsTheRegisters := by
  intro s d t l p host unconfigured low high common
  have accepted : cfgOk d t l = true := (cfgOkIsTheDefault d t l).2 ⟨low, high, common⟩
  exact (inHostMode_host _ host).trans ((if_neg (not_not.2 unconfigured)).trans (if_pos accepted))

/-- Settles O18: past the lock-out SETDELAY asks only whether the buffer is lent. -/
theorem setdelayLoadsEndDelay : Obligations.SetdelayLoadsEndDelay := fun _ _ host =>
  ⟨fun owned => (inHostMode_host _ host).trans (if_neg (ne_true_of_eq_false owned)),
    fun lent => (inHostMode_host _ host).trans (if_pos lent)⟩

/-! START. -/

section
variable {n : BitVec 16} {s : State} (k : Result)

/-- R160: the configuration and the repeat count are checked first. -/
theorem playbackChecks_config (bad : s.cfgState ≠ .valid ∨ n = 0) : playbackChecks n s k = raise .config s := by
  by_cases valid : s.cfgState = .valid
  · exact (if_neg (not_not.2 valid)).trans (if_pos (bad.resolve_left (not_not.2 valid)))
  · exact if_pos valid

variable (valid : s.cfgState = .valid) (nonzero : n ≠ 0)
include valid nonzero

theorem playbackChecks_lent (lent : s.pstate ≠ .idle) : playbackChecks n s k = raise .busy s :=
  (if_neg (not_not.2 valid)).trans ((if_neg nonzero).trans (if_pos lent))

theorem playbackChecks_idle (idle : s.pstate = .idle) : playbackChecks n s k = k :=
  (if_neg (not_not.2 valid)).trans ((if_neg nonzero).trans (if_neg (not_not.2 idle)))

end

/-- In host mode START runs the checks it shares with ARUN (R160, R229). -/
theorem exec_start_host {s : State} (host : s.run = false) (n : BitVec 16) :
    exec (.start n) s = playbackChecks n s (.next (beginPlayback n s).answerOk) := inHostMode_host _ host

/-- Settles O25: the three outcomes of START's checks. -/
theorem startBeginsThePlayback : Obligations.StartBeginsThePlayback := by
  intro s n host
  rw [exec_start_host host]
  exact ⟨playbackChecks_config _, playbackChecks_lent _, playbackChecks_idle _⟩

/-! STOP. -/

/-- R170: HOST's turn completes a held STOP in DONE. -/
theorem hostStep_of_stop_done {s : State} (held : s.hold = .hStop) (done : s.pstate = .done) :
    hostStep s = .next (completeStop s) := by
  simp only [hostStep, held, if_pos done]

/-- R170: before DONE a held STOP gives HOST no step. -/
theorem hostStep_of_stop_waits {s : State} (held : s.hold = .hStop) (waits : s.pstate ≠ .done) : hostStep s = .next s := by
  simp only [hostStep, held, if_neg waits]

theorem takeTurn_pstate {s u : State} {t : Turn} (h : takeTurn s = (t, u)) : u.pstate = s.pstate := by
  rw [eq_of_takeTurn h]

/-- Settles O26: the two issues of STOP past the lock-out, then HOST's turn while STOP is held. -/
theorem stopHoldsUntilDoneAndReleases : Obligations.StopHoldsUntilDoneAndReleases := by
  refine fun s => ⟨fun host idle => ?_, fun host lent => ?_, fun u turn held done => ?_, fun u turn held playing => ?_⟩
  · exact (inHostMode_host _ host).trans (if_pos idle)
  · exact ⟨_, (inHostMode_host _ host).trans (if_neg lent), rfl⟩
  · exact (step_of_turn turn).trans
      (hostStep_of_stop_done ((takeTurn_hold turn).trans held) ((takeTurn_pstate turn).trans done))
  · exact (step_of_turn turn).trans
      (hostStep_of_stop_waits ((takeTurn_hold turn).trans held) (by simp [takeTurn_pstate turn, playing]))

end Sys2Proof.Machine
end

section
/-! PROOFS. PLAYER_TICK (42_sequence_player.md R175 to R178): what PLAYER's turn does in a symbol and in the end delay. -/

namespace Sys2Proof.Machine

/-- R176, R72: the word PLAYER reads, in the form the statements give it. -/
theorem fetchDuty_eq_some {s : State} {w : Duty} (first : s.tick = 0 → readEntry s.sb s.idx.toNat = some w)
    (later : s.tick ≠ 0 → s.cur = w) : fetchDuty s = some w := by
  by_cases h : s.tick = 0
  · exact (fetchDuty_first h).trans (first h)
  · exact (fetchDuty_later h).trans (congrArg some (later h))

section
variable {s : State} (playing : s.pstate = .playing)
include playing

/-- R177: in the end delay PLAYER reads no word. -/
theorem playerStep_of_delay (delay : s.indly = true) : playerStep s = .next (delayTick s) := by
  simp only [playerStep, if_pos playing, if_pos delay]

/-- R176: in a symbol PLAYER executes the word it reads. -/
theorem playerStep_of_fetch (symbol : s.indly = false) {w : Duty} (fetch : fetchDuty s = some w) :
    playerStep s = playDuty w s := by
  simp [playerStep, playing, symbol, fetch]

/-- R92: whatever that word is, PLAYER plays one tick of it. -/
theorem playerStep_of_symbol (symbol : s.indly = false) {w : Duty} (fetch : fetchDuty s = some w) :
    playerStep s = .next (playWord w s) :=
  (playerStep_of_fetch playing symbol fetch).trans ((playDuty_eq w s).trans (playSymbol_of_playing w playing symbol))

end

/-- A taken turn leaves a state that differs in the model's inputs alone, so that every element of it is the old one by
definition. -/
theorem exists_of_takeTurn {s u : State} {t : Turn} (turn : takeTurn s = (t, u)) :
    ∃ sched turns, u = { s with sched := sched, turns := turns } := ⟨_, _, eq_of_takeTurn turn⟩

section
variable {s u : State} (turn : takeTurn s = (.player, u)) (playing : s.pstate = .playing)
include turn playing

/-- PLAYER's turn in the end delay. -/
theorem step_of_playerDelay (delay : s.indly = true) : step s = .next (delayTick u) := by
  obtain ⟨sched, turns, rfl⟩ := exists_of_takeTurn turn
  exact (step_of_turn turn).trans (playerStep_of_delay (s := { s with sched := sched, turns := turns }) playing delay)

variable (symbol : s.indly = false) {w : Duty} (fetch : fetchDuty s = some w)
include symbol fetch

/-- PLAYER's turn in a symbol executes the word read. -/
theorem step_of_playerFetch : step s = playDuty w u := by
  obtain ⟨sched, turns, rfl⟩ := exists_of_takeTurn turn
  exact (step_of_turn turn).trans
    (playerStep_of_fetch (s := { s with sched := sched, turns := turns }) playing symbol fetch)

/-- PLAYER's turn in a symbol plays one tick of the word read. -/
theorem step_of_playerSymbol : step s = .next (playWord w u) := by
  obtain ⟨sched, turns, rfl⟩ := exists_of_takeTurn turn
  exact (step_of_turn turn).trans
    (playerStep_of_symbol (s := { s with sched := sched, turns := turns }) playing symbol fetch)

end

/-- Settles O7: PLAYER's step in a symbol executes the word it reads, which decodes. -/
theorem stepRunsTheFetchedDutyWord : Obligations.StepRunsTheFetchedDutyWord := by
  intro s u w i turn playing symbol first later row
  rw [step_of_playerFetch turn playing symbol (fetchDuty_eq_some first later)]
  simp only [playDuty, row]

/-- Settles O33: PLAYER plays one tick of the word it reads, and the cursor's moves are those of any word. -/
theorem playerTickInASymbol : Obligations.PlayerTickInASymbol := by
  intro s u w turn playing symbol _ _ first later
  rw [step_of_playerSymbol turn playing symbol (fetchDuty_eq_some first later)]
  obtain ⟨sched, turns, rfl⟩ := exists_of_takeTurn turn
  exact ⟨fun inside => congrArg _ (playWord_nextTick w inside),
    fun last more => congrArg _ (playWord_nextEntry w last more),
    fun last entry delay => congrArg _ (playWord_endDelay w last entry delay),
    fun last entry noDelay more => congrArg _ (playWord_nextPass w last entry noDelay more),
    fun last entry noDelay final => congrArg _ (playWord_done w last entry noDelay final)⟩

/-- Settles O34: the end delay counts down, and at its end the pass ends in one of its two ways. -/
theorem playerTickInTheEndDelay : Obligations.PlayerTickInTheEndDelay := by
  intro s u turn playing delay
  rw [step_of_playerDelay turn playing delay]
  obtain ⟨sched, turns, rfl⟩ := exists_of_takeTurn turn
  exact ⟨fun more => congrArg _ (if_pos more),
    fun last more => congrArg _ ((if_neg (Nat.not_lt.2 last)).trans (if_pos more)),
    fun last final => congrArg _ ((if_neg (Nat.not_lt.2 last)).trans (if_neg (Nat.not_lt.2 final)))⟩

end Sys2Proof.Machine
end

section
/-! PROOFS. A playback as the waveform it has yet to write (42_sequence_player.md R179, R182): each PLAYER_TICK writes its
first element and leaves the rest, so the ticks left, DONE and the waveform of R179 are read off one list. -/

namespace Sys2Proof.Machine

/-! The symbols of a pass. -/

/-- The symbols of the entries from `i` on, in entry order (R179). -/
def symbolsFrom (b : Buffer) (top i : Nat) : List Bool := ((b.toList.drop i).map fun w => sym w top).flatten

/-- A pass is all its symbols and its end delay (R179). -/
theorem passWave_eq (b : Buffer) (top delay : Nat) :
    passWave b top delay = symbolsFrom b top 0 ++ List.replicate delay false := rfl

theorem symbolsFrom_entry {b : Buffer} {i : Nat} {w : Duty} (entry : readEntry b i = some w) (top : Nat) :
    symbolsFrom b top i = sym w top ++ symbolsFrom b top (i + 1) := by
  obtain ⟨below, rfl⟩ := readEntry_eq_some.1 entry
  have below' : i < b.toList.length := by simpa using below
  simp [symbolsFrom, List.drop_eq_getElem_cons below']

/-- After entry 24 there is none. -/
theorem symbolsFrom_end (b : Buffer) (top : Nat) : symbolsFrom b top 25 = [] := by
  rw [symbolsFrom, List.drop_of_length_le (Nat.le_of_eq b.length_toList)]
  rfl

theorem symbolsFrom_length (b : Buffer) (top i : Nat) : (symbolsFrom b top i).length = (25 - i) * top := by
  simp [symbolsFrom, List.map_const', Function.comp_def]

/-- The symbols from the middle of entry `i` on begin with the level of its next tick (R176). -/
theorem symbolsFrom_drop {b : Buffer} {i : Nat} {w : Duty} (entry : readEntry b i = some w) {top k : Nat}
    (inside : k < top) :
    (symbolsFrom b top i).drop k = level w k :: (symbolsFrom b top i).drop (k + 1) := by
  have inSymbol : k < (sym w top).length := by simpa using inside
  have inPass : k < (symbolsFrom b top i).length := by
    rw [symbolsFrom_entry entry, List.length_append]
    omega
  rw [List.drop_eq_getElem_cons inPass]
  congr 1
  simp only [symbolsFrom_entry entry, List.getElem_append_left inSymbol]
  simp [sym]

/-- Past the last tick of entry `i` stand the symbols of the entries after it. -/
theorem symbolsFrom_drop_top {b : Buffer} {i : Nat} {w : Duty} (entry : readEntry b i = some w) (top : Nat) :
    (symbolsFrom b top i).drop top = symbolsFrom b top (i + 1) := by
  rw [symbolsFrom_entry entry]
  exact List.drop_left' (sym_length w top)

/-! What a playback has yet to write. -/

/-- What the current pass has yet to write to the pin. -/
def State.passLeft (s : State) : List Bool :=
  if s.indly then List.replicate s.dly.toNat false
  else (symbolsFrom s.sb s.top.toNat s.idx.toNat).drop s.tick.toNat ++ List.replicate s.endDelay.toNat false

/-- What a playback has yet to write to the pin: the rest of the pass, then the passes after it. -/
def State.waveLeft (s : State) : List Bool := s.passLeft ++ waveform s.sb s.top.toNat s.endDelay.toNat (s.passRem.toNat - 1)

theorem passLeft_delay {s : State} (delay : s.indly = true) : s.passLeft = List.replicate s.dly.toNat false := if_pos delay

theorem passLeft_symbol {s : State} (symbol : s.indly = false) :
    s.passLeft = (symbolsFrom s.sb s.top.toNat s.idx.toNat).drop s.tick.toNat ++ List.replicate s.endDelay.toNat false :=
  if_neg (ne_true_of_eq_false symbol)

theorem waveform_succ (b : Buffer) (top delay n : Nat) :
    waveform b top delay (n + 1) = passWave b top delay ++ waveform b top delay n := by
  simp [waveform, List.replicate_succ]

theorem passWave_length (b : Buffer) (top delay : Nat) : (passWave b top delay).length = passTicks top delay := by
  simp [passWave_eq, symbolsFrom_length, passTicks]

theorem waveform_length (b : Buffer) (top delay n : Nat) :
    (waveform b top delay n).length = playbackTicks top delay n := by
  simp [waveform, passWave_length, playbackTicks, List.map_replicate]

/-- R182: the ticks left are the elements yet to write. -/
theorem State.Inv.waveLeft_length {s : State} (h : s.Inv) (playing : s.pstate = .playing) :
    s.waveLeft.length = s.ticksLeft := by
  obtain ⟨_, last, below, _⟩ := h.cursor playing
  rw [State.waveLeft, List.length_append, waveform_length, playbackTicks, State.ticksLeft, add_comm]
  congr 1
  cases delay : s.indly with
  | true => simp [passLeft_delay delay]
  | false => simp [passLeft_symbol delay, symbolsFrom_length]

/-- Before the first tick of a pass all of it is left, and with it a whole playback of the passes that remain. -/
theorem waveLeft_passBegin {s : State} (symbol : s.indly = false) (idx : s.idx = 0) (tick : s.tick = 0)
    (rem : 1 ≤ s.passRem.toNat) : s.waveLeft = waveform s.sb s.top.toNat s.endDelay.toNat s.passRem.toNat := by
  obtain ⟨n, hn⟩ : ∃ n, s.passRem.toNat = n + 1 := ⟨_, (Nat.sub_add_cancel rem).symm⟩
  simp [State.waveLeft, passLeft_symbol symbol, idx, tick, hn, waveform_succ, passWave_eq]

/-! One PLAYER_TICK. -/

/-- A tick that leads from `s` to `t` wrote the first element of what was left, and the playback goes on with the rest or is
DONE with nothing left. -/
def Emits (s t : State) : Prop :=
  (t.pstate = .playing ∧ s.waveLeft = t.dout :: t.waveLeft) ∨ (t.pstate = .done ∧ s.waveLeft = [t.dout])

/-- Within a pass only the rest of the pass counts. -/
theorem emits_of_passLeft {s t : State} (goes : t.pstate = .playing) (left : s.passLeft = t.dout :: t.passLeft)
    (passes : waveform t.sb t.top.toNat t.endDelay.toNat (t.passRem.toNat - 1) =
      waveform s.sb s.top.toNat s.endDelay.toNat (s.passRem.toNat - 1)) : Emits s t :=
  .inl ⟨goes, by rw [State.waveLeft, State.waveLeft, left, passes, List.cons_append]⟩

/-- R178: the last element of a pass is low, and after it comes the next pass or nothing. -/
theorem endPass_emits {s : State} (playing : s.pstate = .playing) (low : s.dout = false) (final : s.passLeft = [false]) :
    Emits s (endPass s) := by
  obtain ⟨more, e⟩ | ⟨atLast, e⟩ := endPass_cases s <;> rw [e]
  · have rem : (s.passRem - 1).toNat = s.passRem.toNat - 1 := by bv_omega
    refine .inl ⟨playing, ?_⟩
    rw [State.waveLeft, final, waveLeft_passBegin rfl rfl rfl (by simp only [rem]; omega), low]
    simp only [rem]
    rfl
  · refine .inr ⟨rfl, ?_⟩
    rw [State.waveLeft, final, Nat.sub_eq_zero_of_le atLast]
    rfl

/-- R177: the end delay writes its low ticks one by one. -/
theorem delayTick_emits {s : State} (h : s.Inv) (playing : s.pstate = .playing) (delay : s.indly = true) :
    Emits s (delayTick s) := by
  obtain ⟨_, _, _, bounds⟩ := h.cursor playing
  obtain ⟨pos, _, _⟩ := bounds delay
  obtain ⟨more, e⟩ | ⟨atLast, e⟩ := delayTick_cases s <;> rw [e]
  · obtain ⟨k, hk⟩ : ∃ k, s.dly.toNat = k + 1 := ⟨_, (Nat.sub_add_cancel pos).symm⟩
    have rest : (s.dly - 1).toNat = k := by bv_omega
    exact emits_of_passLeft playing (by rw [passLeft_delay delay, passLeft_delay (by exact delay), hk, rest]; rfl) rfl
  · have one : s.dly.toNat = 1 := Nat.le_antisymm atLast pos
    exact endPass_emits (s := { s with dout := false }) playing rfl (by simp [State.passLeft, delay, one])

/-- R121: the reset code is low in every tick. -/
theorem level_codeR (t : Nat) : level Config.codeR t = false := by
  rw [level_activeHigh rfl]
  exact decide_eq_false (Nat.not_lt_zero t)

section
variable {s : State} {w : Duty} (symbol : s.indly = false) (entry : readEntry s.sb s.idx.toNat = some w)
  (below : s.tick.toNat < s.top.toNat)
include symbol entry below

/-- R176: in a symbol the next element to write is the level of its tick. -/
theorem passLeft_tick : s.passLeft = level w s.tick.toNat ::
    ((symbolsFrom s.sb s.top.toNat s.idx.toNat).drop (s.tick.toNat + 1) ++ List.replicate s.endDelay.toNat false) := by
  rw [passLeft_symbol symbol, symbolsFrom_drop entry below, List.cons_append]

/-- After the last tick of a symbol stand the entries after it. -/
theorem passLeft_lastTick (last : s.top.toNat ≤ s.tick.toNat + 1) : s.passLeft = level w s.tick.toNat ::
    (symbolsFrom s.sb s.top.toNat (s.idx.toNat + 1) ++ List.replicate s.endDelay.toNat false) := by
  have atTop : s.tick.toNat + 1 = s.top.toNat := Nat.le_antisymm below last
  rw [passLeft_tick symbol entry below, atTop, symbolsFrom_drop_top entry]

variable (playing : s.pstate = .playing)
include playing

/-- R176: within the symbols of a pass the cursor moves to the next tick or the next entry. -/
theorem playWord_emits_nextTick (topBit : s.top.toNat ≤ 32767) (inside : s.tick.toNat + 1 < s.top.toNat) :
    Emits s (playWord w s) := by
  have next : (s.tick + 1).toNat = s.tick.toNat + 1 := by bv_omega
  rw [playWord_nextTick w inside]
  refine emits_of_passLeft playing ?_ rfl
  rw [passLeft_tick symbol entry below, passLeft_symbol (by exact symbol), next]

theorem playWord_emits_nextEntry (last : s.top.toNat ≤ s.tick.toNat + 1) (more : s.idx.toNat < 24) :
    Emits s (playWord w s) := by
  have next : (s.idx + 1).toNat = s.idx.toNat + 1 := by bv_omega
  rw [playWord_nextEntry w last more]
  refine emits_of_passLeft playing ?_ rfl
  rw [passLeft_lastTick symbol entry below last, passLeft_symbol (by exact symbol), next]
  rfl

/-- R176, R178: after entry 24, the reset code (R22), comes the end delay or, without one, the end of the pass. -/
theorem playWord_emits_lastEntry (wf : s.sb.wf = true) (last : s.top.toNat ≤ s.tick.toNat + 1) (final : s.idx = 24) :
    Emits s (playWord w s) := by
  have left := passLeft_lastTick symbol entry below last
  rw [final] at left entry
  have ends : symbolsFrom s.sb s.top.toNat ((24 : BitVec 5).toNat + 1) = [] := symbolsFrom_end _ _
  rw [ends, List.nil_append] at left
  by_cases noDelay : s.endDelay = 0
  · obtain rfl : w = Config.codeR := Option.some.inj (entry.symm.trans ((wf_iff _).1 wf).1)
    rw [playWord_endPass _ last final noDelay]
    exact endPass_emits (s := { s with cur := Config.codeR, dout := level Config.codeR s.tick.toNat }) playing
      (level_codeR s.tick.toNat) (left.trans (by simp [level_codeR, noDelay]))
  · rw [playWord_endDelay w last final noDelay]
    exact emits_of_passLeft playing (by simp [left, passLeft_delay]) rfl

end

/-- A tick of a symbol writes its level, and each move of the cursor leaves the rest. -/
theorem playWord_emits {s : State} (h : s.Inv) (playing : s.pstate = .playing) (symbol : s.indly = false) {w : Duty}
    (fetch : fetchDuty s = some w) : Emits s (playWord w s) := by
  have entry : readEntry s.sb s.idx.toNat = some w := h.fetchDuty_eq playing symbol ▸ fetch
  obtain ⟨_, bound, below, _⟩ := h.cursor playing
  by_cases inside : s.tick.toNat + 1 < s.top.toNat
  · exact playWord_emits_nextTick symbol entry below playing h.topBit inside
  · have last : s.top.toNat ≤ s.tick.toNat + 1 := Nat.not_lt.1 inside
    by_cases more : s.idx.toNat < 24
    · exact playWord_emits_nextEntry symbol entry below playing last more
    · exact playWord_emits_lastEntry symbol entry below playing h.buffer last (by bv_omega)

/-- One PLAYER_TICK of a playback, from a state of the invariants. -/
theorem playerStep_emits {s : State} (h : s.Inv) (playing : s.pstate = .playing) :
    ∃ t, playerStep s = .next t ∧ t.Inv ∧ Emits s t := by
  obtain ⟨stopped, _⟩ | ⟨_, delay, e⟩ | ⟨w, _, symbol, fetch, e⟩ | ⟨_, symbol, fetch, _⟩ := playerStep_cases s
  · exact absurd playing stopped
  · exact ⟨_, e, h.delayTick playing delay, delayTick_emits h playing delay⟩
  · exact ⟨_, e, h.playWord playing symbol fetch, playWord_emits h playing symbol fetch⟩
  · exact absurd fetch (h.fetchDuty_ne_none playing symbol)

/-- In ticks (R182): a tick takes one off what is left, or was the last. -/
theorem Emits.ticksLeft {s t : State} (e : Emits s t) (hs : s.Inv) (playing : s.pstate = .playing) (ht : t.Inv) :
    (t.pstate = .playing ∧ t.ticksLeft + 1 = s.ticksLeft) ∨ (t.pstate = .done ∧ s.ticksLeft = 1) := by
  rw [← hs.waveLeft_length playing]
  obtain ⟨goes, left⟩ | ⟨done, left⟩ := e <;> rw [left]
  · exact .inl ⟨goes, by rw [← ht.waveLeft_length goes, List.length_cons]⟩
  · exact .inr ⟨done, rfl⟩

/-- Settles O35: PLAYER's turn makes one tick of the playback. -/
theorem playerTickCountsThePlaybackDown : Obligations.PlayerTickCountsThePlaybackDown := by
  intro s u h playing turn
  obtain ⟨sched, turns, rfl⟩ := exists_of_takeTurn turn
  have h' := h.inputs s.cmds sched turns
  obtain ⟨t, e, ht, emits⟩ := playerStep_emits h' playing
  exact ⟨t, (step_of_turn turn).trans e, emits.ticksLeft h' playing ht⟩

/-! All the ticks of a playback. -/

/-- One tick, then the others. -/
theorem playTicks_succ {s t u : State} {k : Nat} {l : List Bool} (tick : playerStep s = .next t)
    (rest : playTicks k t = some (l, u)) : playTicks (k + 1) s = some (t.dout :: l, u) := by
  simp [playTicks, tick, rest]

/-- The first k ticks write the first k elements of what is left, and the playback is DONE, with the pin low, exactly after
the last one. -/
theorem playTicks_emits {s : State} (h : s.Inv) (playing : s.pstate = .playing) {k : Nat}
    (le : k ≤ s.waveLeft.length) :
    ∃ t, playTicks k s = some (s.waveLeft.take k, t) ∧
      ((k < s.waveLeft.length ∧ t.pstate = .playing) ∨ (k = s.waveLeft.length ∧ t.pstate = .done ∧ t.dout = false)) := by
  induction k generalizing s with
  | zero =>
    obtain ⟨_, _, _, ⟨_, left⟩ | ⟨_, left⟩⟩ := playerStep_emits h playing <;>
      exact ⟨s, rfl, .inl ⟨by simp [left], playing⟩⟩
  | succ k ih =>
    obtain ⟨t, tick, ht, ⟨goes, left⟩ | ⟨done, left⟩⟩ := playerStep_emits h playing <;> rw [left] at le ⊢
    · obtain ⟨u, rest, ends⟩ := ih ht goes (Nat.le_of_succ_le_succ le)
      exact ⟨u, playTicks_succ tick rest, by simpa using ends⟩
    · obtain rfl : k = 0 := Nat.le_zero.1 (Nat.le_of_succ_le_succ le)
      exact ⟨t, playTicks_succ tick rfl, .inr ⟨rfl, done, (ht.quiet (by simp [done])).1⟩⟩

/-- Settles O37: there are as many ticks as elements left to write. -/
theorem playbackEndsAfterItsTicks : Obligations.PlaybackEndsAfterItsTicks := by
  intro s h playing
  rw [← h.waveLeft_length playing]
  refine ⟨?_, fun k lt => ?_⟩
  · obtain ⟨t, ticks, ⟨lt, _⟩ | ⟨_, done, _⟩⟩ := playTicks_emits h playing le_rfl
    · exact absurd lt (Nat.lt_irrefl _)
    · exact ⟨_, t, ticks, done⟩
  · obtain ⟨t, ticks, ⟨_, goes⟩ | ⟨eq, _⟩⟩ := playTicks_emits h playing lt.le
    · exact ⟨_, t, ticks, goes⟩
    · exact absurd eq lt.ne

/-- START in host mode keeps the invariants whatever HOST is held by: in IDLE it is not STOP (I9), and a playback may begin
under a WAIT. -/
theorem State.Inv.startedByHost {s : State} (h : s.Inv) (host : s.run = false) (valid : s.cfgState = .valid)
    (idle : s.pstate = .idle) {n : BitVec 16} (nonzero : n ≠ 0) : (beginPlayback n s).answerOk.Inv := by
  have notRun {p : Prop} : s.run = true → p := by simp [host]
  have free : { s with hold := .none, waiting := false }.Inv :=
    { h with running := notRun, armed := nofun, heldStop := nofun }
  have begun := free.playbackBegun valid nonzero rfl (waiting := false) (aphase := s.aphase) notRun nofun
  exact { begun with
    running := notRun
    armed := h.armed
    heldStop := fun held => absurd idle (h.heldStop held).1 }

/-- Settles O38: after START the whole waveform is left to write. -/
theorem playbackEmitsItsWaveform : Obligations.PlaybackEmitsItsWaveform := by
  intro s n h host valid idle nonzero
  have started := h.startedByHost host valid idle nonzero
  have left : (beginPlayback n s).answerOk.waveLeft = waveform s.sb s.top.toNat s.endDelay.toNat n.toNat :=
    waveLeft_passBegin rfl rfl rfl (by simp; bv_omega)
  have ticks : n.toNat * (25 * s.top.toNat + s.endDelay.toNat) = (beginPlayback n s).answerOk.waveLeft.length := by
    rw [left, waveform_length]
    rfl
  obtain ⟨t, plays, ⟨lt, _⟩ | ⟨_, done, low⟩⟩ := playTicks_emits started rfl ticks.le
  · exact absurd ticks lt.ne
  · rw [ticks, List.take_length, ← ticks, left] at plays
    refine ⟨_, t, (exec_start_host host n).trans (playbackChecks_idle _ valid nonzero idle), ?_, plays, done, low⟩
    exact (h.quiet (by simp [idle])).1

end Sys2Proof.Machine
end

section
/-! PROOFS. What the agents other than PLAYER leave of a playback (42_sequence_player.md R182; 20_memory.md R67), and the
configuration, which no step but a reset changes once it is made (R152, R232). -/

namespace Sys2Proof.Machine

/-! HOST's commands while the buffer is lent. -/

/-- `t` is `s` up to the timer, HOST's hold and answer, ANIMATOR's phase, the sticky flags and the model's inputs: it has the
configuration, the buffer and the whole playback of `s`. -/
def SamePlayback (s t : State) : Prop :=
  t = { s with
    waiting := t.waiting, hold := t.hold, aphase := t.aphase, resp := t.resp, eCfg := t.eCfg, eBusy := t.eBusy,
    eIll := t.eIll, fOwn := t.fOwn, cmds := t.cmds, sched := t.sched, turns := t.turns }

/-- The outcome is a next state with the playback of `s`. -/
def KeepsPlayback (s : State) (r : Result) : Prop := ∃ t, r = .next t ∧ SamePlayback s t

theorem KeepsPlayback.raised {s : State} {r : Result} {c : Cause} (e : r = raise c s) : KeepsPlayback s r :=
  ⟨_, e, by cases c <;> rfl⟩

/-- R229: the RUN lock-out raises, or the command goes on. -/
theorem inHostMode_keepsPlayback {s : State} {k : Result} (h : KeepsPlayback s k) : KeepsPlayback s (inHostMode s k) := by
  obtain ⟨_, e⟩ | ⟨_, e⟩ := inHostMode_cases s k
  · exact .raised e
  · rwa [e]

section
variable {s : State} (lent : s.lent = true)
include lent

/-- R67: a lent buffer ends a command that would write it. -/
theorem whileOwned_keepsPlayback (k : Result) : KeepsPlayback s (whileOwned s k) :=
  .raised (whileOwned_lent k lent)

/-- R160, R198: a running playback ends a command that would begin one. -/
theorem playbackChecks_keepsPlayback (n : BitVec 16) (k : Result) : KeepsPlayback s (playbackChecks n s k) := by
  obtain ⟨_, e⟩ | ⟨_, _, _, e⟩ | ⟨_, _, idle, _⟩ := playbackChecks_cases n s k
  · exact .raised e
  · exact .raised e
  · exact absurd idle ((lent_iff s).1 lent)

/-- No command of HOST touches a playback: while the buffer is lent, in a valid configuration, the commands answer, raise, or
hold HOST. -/
theorem exec_keepsPlayback (valid : s.cfgState = .valid) {i : Instr} (command : i.isCommand = true) :
    KeepsPlayback s (exec i s) := by
  cases i with
  | configure d t l p =>
    obtain ⟨_, e⟩ | ⟨_, _, e⟩ | ⟨_, un, _⟩ | ⟨_, un, _⟩ := execConfigure_cases d t l p s
    · exact .raised e
    · exact .raised e
    · simp [valid] at un
    · simp [valid] at un
  | setdelay d =>
    obtain ⟨_, e⟩ | ⟨_, _, e⟩ | ⟨_, owned, _⟩ := execSetdelay_cases d s
    · exact .raised e
    · exact .raised e
    · simp [lent] at owned
  | encode c => exact inHostMode_keepsPlayback (whileOwned_keepsPlayback lent _)
  | write i b =>
    obtain ⟨_, e⟩ | ⟨_, _, e⟩ | ⟨_, _, _, e⟩ | ⟨_, _, owned, _⟩ := execWrite_cases i b s
    · exact .raised e
    · exact .raised e
    · exact .raised e
    · simp [lent] at owned
  | read i =>
    obtain ⟨_, e⟩ | ⟨_, w, _, e⟩ := execRead_cases i s
    · exact .raised e
    · exact ⟨_, e, rfl⟩
  | rdcsr n =>
    obtain ⟨_, e⟩ | ⟨v, _, e⟩ := execRdcsr_cases n s
    · exact .raised e
    · exact ⟨_, e, rfl⟩
  | start n => exact inHostMode_keepsPlayback (playbackChecks_keepsPlayback lent n _)
  | stop => exact inHostMode_keepsPlayback ⟨_, if_neg ((lent_iff s).1 lent), rfl⟩
  | wait => exact inHostMode_keepsPlayback ⟨_, rfl, rfl⟩
  | astep => exact inHostMode_keepsPlayback (whileOwned_keepsPlayback lent _)
  | arun n => exact inHostMode_keepsPlayback (playbackChecks_keepsPlayback lent n _)
  | sym0 => cases command
  | sym1 => cases command
  | symr => cases command

end

/-! The agents other than PLAYER under a playback. -/

/-- HOST's list of words is no part of a playback. -/
theorem KeepsPlayback.of_cmds {s : State} {r : Result} {cmds : List Word} (h : KeepsPlayback { s with cmds := cmds } r) :
    KeepsPlayback s r := h

/-- HOST's step: a word presented touches no playback, and a STOP completes in DONE alone. -/
theorem hostStep_keepsPlayback {s : State} (valid : s.cfgState = .valid) (playing : s.pstate = .playing) :
    KeepsPlayback s (hostStep s) := by
  obtain ⟨_, done, _⟩ | ⟨_, _, e⟩ | ⟨_, _, e⟩ | ⟨_, _, e⟩ | ⟨_, _, e⟩ | ⟨w, rest, _, _, e⟩ := hostStep_cases s
  · simp [playing] at done
  · exact ⟨_, e, rfl⟩
  · exact ⟨_, e, rfl⟩
  · exact ⟨_, e, rfl⟩
  · exact ⟨_, e, rfl⟩
  · have lent : ({ s with cmds := rest } : State).lent = true := (lent_iff _).2 (by simp [playing])
    obtain ⟨i, hi, p⟩ | ⟨_, _, p⟩ := presentWord_cases w { s with cmds := rest } <;> rw [e, p]
    · exact (exec_keepsPlayback lent valid (decode_cmd_isCommand hi)).of_cmds
    · exact (KeepsPlayback.raised rfl).of_cmds

/-- ANIMATOR's step: its phases that begin, release or sweep are not under a playback (I8). -/
theorem State.Inv.animatorStep_keepsPlayback {s : State} (h : s.Inv) (playing : s.pstate = .playing) :
    KeepsPlayback s (animatorStep s) := by
  have notOwned (run : s.run = true) : ¬(s.aphase = .aStart ∨ s.aphase = .aMutate) := fun owned => by
    simpa [playing] using h.phaseOwned run owned
  obtain ⟨_, e⟩ | ⟨run, phase, _⟩ | ⟨_, _, _, e⟩ | ⟨_, _, _, e⟩ | ⟨_, _, _, e⟩ | ⟨_, _, done, _⟩ | ⟨run, phase, _⟩ :=
    animatorStep_cases s
  · exact ⟨_, e, rfl⟩
  · exact absurd (.inl phase) (notOwned run)
  · exact ⟨_, e, rfl⟩
  · exact ⟨_, e, rfl⟩
  · exact ⟨_, e, rfl⟩
  · simp [playing] at done
  · exact absurd (.inr phase) (notOwned run)

theorem State.Inv.runTurn_keepsPlayback {s : State} (h : s.Inv) (playing : s.pstate = .playing) {t : Turn}
    (noPlayer : t ≠ .player) (noReset : t ≠ .reset) : KeepsPlayback s (runTurn t s) := by
  cases t with
  | host => exact hostStep_keepsPlayback (h.lentConfigured (by simp [playing])) playing
  | player => exact absurd rfl noPlayer
  | timer => exact ⟨_, rfl, rfl⟩
  | animator => exact h.animatorStep_keepsPlayback playing
  | reset => exact absurd rfl noReset

/-- A step that is neither PLAYER's nor a reset leaves the playback as it was. -/
theorem State.Inv.step_samePlayback {s t : State} (h : s.Inv) (playing : s.pstate = .playing)
    (noPlayer : (takeTurn s).1 ≠ .player) (noReset : (takeTurn s).1 ≠ .reset) (hs : step s = .next t) :
    SamePlayback s t := by
  obtain ⟨sched, turns, e⟩ := exists_of_takeTurn (Prod.eta (takeTurn s)).symm
  obtain ⟨t', ht, same⟩ := (h.inputs s.cmds sched turns).runTurn_keepsPlayback playing noPlayer noReset
  rw [step, e, ht, next_inj] at hs
  exact hs ▸ same

/-- Settles O36: such a step leaves all of the playback, the ticks left among it. -/
theorem otherAgentsCannotDisturbThePlayback : Obligations.OtherAgentsCannotDisturbThePlayback := by
  intro s t h playing noPlayer noReset hs
  have same := h.step_samePlayback playing noPlayer noReset hs
  rw [same]
  exact ⟨playing, rfl, rfl, rfl, rfl, rfl, rfl, rfl, rfl, rfl, rfl, rfl⟩

/-! The configuration. -/

/-- `t` has the configuration of `s` (R25). -/
def SameConfig (s t : State) : Prop :=
  t.cfgState = s.cfgState ∧ t.div = s.div ∧ t.top = s.top ∧ t.load = s.load ∧ t.pin = s.pin

theorem SameConfig.refl (s : State) : SameConfig s s := ⟨rfl, rfl, rfl, rfl, rfl⟩

theorem SameOutsidePlayback.sameConfig {s t : State} (h : SameOutsidePlayback s t) : SameConfig s t := by
  rw [h]; exact .refl s

theorem raise_sameConfig {c : Cause} {s t : State} (hr : raise c s = .next t) : SameConfig s t := by
  rw [raise_next hr]
  simp [SameConfig]

theorem sweep_sameConfig {s t : State} (hr : sweep s = .next t) : SameConfig s t := by
  obtain ⟨_, _, rfl⟩ := sweep_next hr
  exact .refl s

/-- R152: of the commands CONFIGURE alone writes the configuration, and only in UNCONFIGURED. -/
theorem CommandEffect.sameConfig {s t : State} {r : Result} (he : CommandEffect s r) (hr : r = .next t)
    (made : s.cfgState ≠ .unconfigured) : SameConfig s t := by
  cases he with
  | configFailed un => exact absurd un made
  | configured _ _ _ _ un => exact absurd un made
  | swept => exact (sweep_sameConfig hr :)
  | _ => cases hr; exact .refl s

theorem TurnEffect.sameConfig {s t : State} {r : Result} (he : TurnEffect s r) (hr : r = .next t)
    (made : s.cfgState ≠ .unconfigured) : SameConfig s t := by
  cases he with
  | raised => exact raise_sameConfig hr
  | command _ _ effect => exact effect.sameConfig hr made
  | fetchFailed => cases hr
  | delayTicked => cases hr; exact (delayTick_same s).sameConfig
  | wordPlayed w => cases hr; exact (playWord_same w s).sameConfig
  | frameMutated => exact (sweep_sameConfig hr :)
  | _ => cases hr; exact .refl s

/-- Settles O50: no turn but a reset writes a configuration once made. -/
theorem configurationIsPermanent : Obligations.ConfigurationIsPermanent := by
  intro s t made noReset hs
  obtain ⟨cmds, sched, turns, effect⟩ := step_effect noReset
  exact effect.sameConfig hs made

/-- Settles O51: a failed configuration stays so (R152), and in it the invariants let nothing play and no RUN mode begin
(I4, I7). -/
theorem failedConfigurationPlaysNothing : Obligations.FailedConfigurationPlaysNothing := by
  intro s t h failed noReset hs
  have inv := everyStepKeepsTheInvariants s t h hs
  have notValid : t.cfgState ≠ .valid := by
    obtain ⟨same, _⟩ := configurationIsPermanent s t (by simp [failed]) noReset hs
    simp [same, failed]
  have idle : t.pstate = .idle := not_not.1 fun lent => notValid (inv.lentConfigured lent)
  refine ⟨idle, Bool.eq_false_iff.2 fun run => ?_, (inv.quiet (by simp [idle])).1⟩
  obtain ⟨valid, _⟩ := inv.running run
  exact notValid valid

end Sys2Proof.Machine
end

section
/-! PROOFS. Liveness in fair runs (42_sequence_player.md R182; 60_exceptions.md R233; 00_scope.md R71): every playback ends,
and every held STOP or WAIT is lifted and completes. -/

namespace Sys2Proof.Machine

/-! Steps along a run. -/

/-- The invariants hold all along a run that starts in them. -/
theorem Run.inv {r : Nat → State} (h : Run r) (start : (r 0).Inv) (n : Nat) : (r n).Inv :=
  h.keeps (fun _ a c inv => inv.inputs c a _) everyStepKeepsTheInvariants start n (Nat.zero_le n)

/-- The next state of a run is the step's, with the inputs the world outside has set. -/
theorem Run.next {r : Nat → State} (h : Run r) (n : Nat) :
    ∃ u sched cmds, step (r n) = .next u ∧ r (n + 1) = { u with sched := sched, cmds := cmds } :=
  let ⟨u, hs, e⟩ := h n
  ⟨u, _, _, hs, e⟩

/-! Every playback ends. -/

/-- Under a playback every step but a reset ends it in DONE or leaves it playing with no more ticks left, and PLAYER's own
with fewer. -/
theorem State.Inv.step_of_playing {s t : State} (h : s.Inv) (playing : s.pstate = .playing)
    (noReset : (takeTurn s).1 ≠ .reset) (hs : step s = .next t) :
    t.pstate = .done ∨
      (t.pstate = .playing ∧ t.ticksLeft ≤ s.ticksLeft ∧ ((takeTurn s).1 = .player → t.ticksLeft < s.ticksLeft)) := by
  by_cases player : (takeTurn s).1 = .player
  · obtain ⟨t', ht, ⟨goes, fewer⟩ | ⟨done, _⟩⟩ := playerTickCountsThePlaybackDown s _ h playing (Prod.ext player rfl) <;>
      obtain rfl := next_inj.1 (ht.symm.trans hs)
    · exact .inr ⟨goes, by omega, fun _ => by omega⟩
    · exact .inl done
  · obtain ⟨goes, same, _⟩ := otherAgentsCannotDisturbThePlayback s t h playing player noReset hs
    exact .inr ⟨goes, same.le, fun p => absurd p player⟩

/-- The same along a run. -/
theorem Run.next_of_playing {r : Nat → State} (h : Run r) {n : Nat} (inv : (r n).Inv) (playing : (r n).pstate = .playing)
    (noReset : (takeTurn (r n)).1 ≠ .reset) :
    (r (n + 1)).pstate = .done ∨
      ((r (n + 1)).pstate = .playing ∧ (r (n + 1)).ticksLeft ≤ (r n).ticksLeft ∧
        ((takeTurn (r n)).1 = .player → (r (n + 1)).ticksLeft < (r n).ticksLeft)) := by
  obtain ⟨u, sched, cmds, hs, e⟩ := h.next n
  have after := inv.step_of_playing playing noReset hs
  rw [e]
  exact after

/-- Settles O57: PLAYER has a step as long as a playback goes on, and the ticks left are the measure. -/
theorem everyPlaybackEndsInFairRuns : Obligations.EveryPlaybackEndsInFairRuns := by
  intro r k run fair start playing
  have inv := run.inv start
  refine fair.reaches (P := fun n => (r n).pstate = .playing) (fun n => (r n).ticksLeft) (fun n goes => by simp [goes])
    (fun n goes => ?_) (fun n goes player => ?_) playing
  · by_cases reset : (takeTurn (r n)).1 = .reset
    · exact .inl (.inl reset)
    · obtain done | ⟨still, le, _⟩ := run.next_of_playing (inv n) goes reset
      · exact .inr (.inl (.inr done))
      · exact .inr (.inr ⟨still, le⟩)
  · obtain done | ⟨_, _, fewer⟩ := run.next_of_playing (inv n) goes (by simp [player])
    · exact .inr (.inl (.inr done))
    · exact .inr (.inr (fewer player))

/-! A held command. -/

theorem SameOutsidePlayback.hold {s t : State} (h : SameOutsidePlayback s t) : t.hold = s.hold := by rw [h]

theorem sweep_hold {s t : State} (hr : sweep s = .next t) : t.hold = s.hold := by
  obtain ⟨_, _, rfl⟩ := sweep_next hr
  rfl

/-- The condition that the held command waits for is true: DONE for STOP (R170), the timer expired for WAIT (R195). -/
def State.holdLifted (s : State) : Prop :=
  (s.hold = .hStop ∧ s.pstate = .done) ∨ (s.hold = .hWait ∧ s.waiting = false)

/-- Then HOST has its completion to do. -/
theorem State.holdLifted.enabled {s : State} (h : s.holdLifted) : enabled .host s = true := by
  obtain ⟨held, done⟩ | ⟨held, expired⟩ := h
  · simp [enabled_host_stop held, done]
  · simp [enabled_host_wait held, expired]

/-- Until its condition is true a held command stays held. -/
theorem TurnEffect.keeps_hold {s t : State} {r : Result} (he : TurnEffect s r) (hr : r = .next t) (held : s.hold ≠ .none)
    (blocked : ¬s.holdLifted) : t.hold = s.hold := by
  cases he with
  | raised c => rw [raise_next hr]; simp
  | command free => exact absurd free held
  | stopCompleted stop done => exact absurd (.inl ⟨stop, done⟩) blocked
  | waitCompleted wait expired => exact absurd (.inr ⟨wait, expired⟩) blocked
  | fetchFailed => cases hr
  | delayTicked => cases hr; exact (delayTick_same s).hold
  | wordPlayed w => cases hr; exact (playWord_same w s).hold
  | frameMutated => exact (sweep_hold hr :)
  | _ => cases hr; rfl

theorem State.Inv.run_of_held {s : State} (h : s.Inv) (held : s.hold ≠ .none) : s.run = false := by
  by_contra run
  obtain ⟨_, _, free⟩ := h.running (by simpa using run)
  exact held free

theorem State.holdLifted.held {s : State} (h : s.holdLifted) : s.hold ≠ .none := by
  obtain ⟨held, _⟩ | ⟨held, _⟩ := h <;> simp [held]

/-- A tick of a playback leaves a WAIT whose timer has expired as it is. -/
theorem SameOutsidePlayback.holdLifted {s t : State} (h : SameOutsidePlayback s t) (playing : s.pstate = .playing)
    (lifted : s.holdLifted) : t.hold = s.hold ∧ t.holdLifted := by
  obtain ⟨_, done⟩ | wait := lifted
  · simp [playing] at done
  · rw [h]
    exact ⟨rfl, .inr wait⟩

/-- Once its condition is true, a held command waits for HOST's turn alone: in host mode nothing releases or arms anything. -/
theorem runTurn_keeps_holdLifted {s u : State} (lifted : s.holdLifted) (h : s.Inv) {t : Turn} (noHost : t ≠ .host)
    (noReset : t ≠ .reset) (hr : runTurn t s = .next u) : u.hold = s.hold ∧ u.holdLifted := by
  cases t with
  | host => exact absurd rfl noHost
  | player =>
    obtain ⟨_, e⟩ | ⟨playing, _, e⟩ | ⟨w, playing, _, _, e⟩ | ⟨_, _, _, e⟩ := playerStep_cases s <;> cases e.symm.trans hr
    · exact ⟨rfl, lifted⟩
    · exact (delayTick_same s).holdLifted playing lifted
    · exact (playWord_same w s).holdLifted playing lifted
  | timer =>
    cases hr
    exact ⟨rfl, lifted.imp_right fun ⟨wait, _⟩ => ⟨wait, rfl⟩⟩
  | animator =>
    have idle : animatorStep s = .next s := if_neg (by simp [h.run_of_held lifted.held])
    cases idle.symm.trans hr
    exact ⟨rfl, lifted⟩
  | reset => exact absurd rfl noReset

/-- HOST's turn completes the command with OK, a STOP by releasing the buffer (R170, R195). -/
theorem hostStep_completes {s : State} (lifted : s.holdLifted) :
    ∃ t, hostStep s = .next t ∧ t.hold = .none ∧ t.resp = okAnswer ∧
      (s.hold = .hStop → s.pstate = .done ∧ t.pstate = .idle) := by
  obtain ⟨stop, done⟩ | ⟨wait, expired⟩ := lifted
  · exact ⟨_, hostStep_of_stop_done stop done, rfl, rfl, fun _ => ⟨done, rfl⟩⟩
  · exact ⟨completeWait s, by simp [hostStep, wait, expired], rfl, rfl, fun stop => by simp [wait] at stop⟩

theorem step_keeps_holdLifted {s t : State} (lifted : s.holdLifted) (h : s.Inv) (noHost : (takeTurn s).1 ≠ .host)
    (noReset : (takeTurn s).1 ≠ .reset) (hs : step s = .next t) : t.hold = s.hold ∧ t.holdLifted := by
  obtain ⟨sched, turns, taken⟩ := exists_of_takeTurn (Prod.eta (takeTurn s)).symm
  rw [step, taken] at hs
  exact runTurn_keeps_holdLifted (s := { s with sched := sched, turns := turns }) lifted
    (h.inputs s.cmds sched turns) noHost noReset hs

theorem step_completes {s t : State} (lifted : s.holdLifted) (host : (takeTurn s).1 = .host) (hs : step s = .next t) :
    t.hold = .none ∧ t.resp = okAnswer ∧ (s.hold = .hStop → s.pstate = .done ∧ t.pstate = .idle) := by
  obtain ⟨sched, turns, taken⟩ := exists_of_takeTurn (Prod.eta (takeTurn s)).symm
  obtain ⟨t', ht, completed⟩ := hostStep_completes (s := { s with sched := sched, turns := turns }) lifted
  rw [step, taken, host] at hs
  obtain rfl := next_inj.1 (ht.symm.trans hs)
  exact completed

/-! A held command along a run. -/

section
variable {r : Nat → State} (run : Run r)
include run

theorem Run.keeps_hold {n : Nat} (held : (r n).hold ≠ .none) (blocked : ¬(r n).holdLifted)
    (noReset : (takeTurn (r n)).1 ≠ .reset) : (r (n + 1)).hold = (r n).hold := by
  obtain ⟨u, _, _, hs, e⟩ := run.next n
  obtain ⟨_, _, _, effect⟩ := step_effect noReset
  have kept := effect.keeps_hold hs held blocked
  rw [e]
  exact kept

theorem Run.keeps_holdLifted {n : Nat} (inv : (r n).Inv) (lifted : (r n).holdLifted) (noHost : (takeTurn (r n)).1 ≠ .host)
    (noReset : (takeTurn (r n)).1 ≠ .reset) : (r (n + 1)).hold = (r n).hold ∧ (r (n + 1)).holdLifted := by
  obtain ⟨u, _, _, hs, e⟩ := run.next n
  have kept := step_keeps_holdLifted lifted inv noHost noReset hs
  rw [e]
  exact kept

/-- HOST's completion along a run. -/
theorem Run.completes {n : Nat} (lifted : (r n).holdLifted) (host : (takeTurn (r n)).1 = .host) :
    (r (n + 1)).hold = .none ∧ (r (n + 1)).resp = okAnswer ∧
      ((r n).hold = .hStop → (r n).pstate = .done ∧ (r (n + 1)).pstate = .idle) := by
  obtain ⟨u, _, _, hs, e⟩ := run.next n
  have completed := step_completes lifted host hs
  rw [e]
  exact completed

/-- A held WAIT comes to WAITING = 0, still held, by TIMER's turn at the latest (R196). -/
theorem Run.wait_lifted {k : Nat} (fair : WeaklyFair .timer r) (held : (r k).hold = .hWait) :
    ∃ n, k ≤ n ∧ ((takeTurn (r n)).1 = .reset ∨ ((r n).hold = .hWait ∧ (r n).waiting = false)) := by
  have keep {n : Nat} (wait : (r n).hold = .hWait) (armed : (r n).waiting = true)
      (noReset : (takeTurn (r n)).1 ≠ .reset) : (r (n + 1)).hold = .hWait :=
    (run.keeps_hold (by simp [wait]) (by simp [State.holdLifted, wait, armed]) noReset).trans wait
  cases armed : (r k).waiting with
  | false => exact ⟨k, le_rfl, .inr ⟨held, armed⟩⟩
  | true =>
    refine fair.reaches (P := fun n => (r n).hold = .hWait ∧ (r n).waiting = true) (fun _ => 0)
      (fun n ⟨_, armed⟩ => armed) (fun n ⟨wait, armed⟩ => ?_) (fun n ⟨wait, armed⟩ timer => ?_) ⟨held, armed⟩
    · by_cases reset : (takeTurn (r n)).1 = .reset
      · exact .inl (.inl reset)
      · cases after : (r (n + 1)).waiting with
        | false => exact .inr (.inl (.inr ⟨keep wait armed reset, rfl⟩))
        | true => exact .inr (.inr ⟨⟨keep wait armed reset, rfl⟩, le_rfl⟩)
    · obtain ⟨u, _, _, hs, e⟩ := run.next n
      have expired : (r (n + 1)).waiting = false := by
        rw [step, timer] at hs
        cases hs
        rw [e]
        rfl
      exact .inr (.inl (.inr ⟨keep wait armed (by simp [timer]), expired⟩))

variable (start : (r 0).Inv) {k : Nat}
include start

/-- A held STOP comes to DONE, still held: its playback goes on until then, and its ticks are the measure. -/
theorem Run.stop_lifted (fair : WeaklyFair .player r) (held : (r k).hold = .hStop) :
    ∃ n, k ≤ n ∧ ((takeTurn (r n)).1 = .reset ∨ ((r n).hold = .hStop ∧ (r n).pstate = .done)) := by
  have inv := run.inv start
  have keep {n : Nat} (stop : (r n).hold = .hStop) (goes : (r n).pstate = .playing)
      (noReset : (takeTurn (r n)).1 ≠ .reset) : (r (n + 1)).hold = .hStop :=
    (run.keeps_hold (by simp [stop]) (by simp [State.holdLifted, stop, goes]) noReset).trans stop
  obtain ⟨lent, _⟩ := (inv k).heldStop held
  cases ps : (r k).pstate with
  | idle => exact absurd ps lent
  | done => exact ⟨k, le_rfl, .inr ⟨held, ps⟩⟩
  | playing =>
    refine fair.reaches (P := fun n => (r n).hold = .hStop ∧ (r n).pstate = .playing) (fun n => (r n).ticksLeft)
      (fun n ⟨_, goes⟩ => by simp [goes]) (fun n ⟨stop, goes⟩ => ?_) (fun n ⟨stop, goes⟩ player => ?_) ⟨held, ps⟩
    · by_cases reset : (takeTurn (r n)).1 = .reset
      · exact .inl (.inl reset)
      · obtain done | ⟨still, le, _⟩ := run.next_of_playing (inv n) goes reset
        · exact .inr (.inl (.inr ⟨keep stop goes reset, done⟩))
        · exact .inr (.inr ⟨⟨keep stop goes reset, still⟩, le⟩)
    · have noReset : (takeTurn (r n)).1 ≠ .reset := by simp [player]
      obtain done | ⟨_, _, fewer⟩ := run.next_of_playing (inv n) goes noReset
      · exact .inr (.inl (.inr ⟨keep stop goes noReset, done⟩))
      · exact .inr (.inr (fewer player))

/-- Once its condition is true, a held command completes in HOST's turn. -/
theorem Run.lifted_completes (fair : WeaklyFair .host r) (lifted : (r k).holdLifted) :
    ∃ n, k ≤ n ∧ ((takeTurn (r n)).1 = .reset ∨
      ((takeTurn (r n)).1 = .host ∧ (r n).hold = (r k).hold ∧ (r (n + 1)).hold = .none ∧ (r (n + 1)).resp = okAnswer ∧
        ((r k).hold = .hStop → (r n).pstate = .done ∧ (r (n + 1)).pstate = .idle))) := by
  have inv := run.inv start
  have complete {n : Nat} (same : (r n).hold = (r k).hold) (lifted : (r n).holdLifted) (host : (takeTurn (r n)).1 = .host) :=
    And.intro host (And.intro same (same ▸ run.completes lifted host))
  refine fair.reaches (P := fun n => (r n).hold = (r k).hold ∧ (r n).holdLifted) (fun _ => 0)
    (fun n ⟨_, lifted⟩ => lifted.enabled) (fun n ⟨same, lifted⟩ => ?_)
    (fun n ⟨same, lifted⟩ host => .inl (.inr (complete same lifted host))) ⟨rfl, lifted⟩
  by_cases reset : (takeTurn (r n)).1 = .reset
  · exact .inl (.inl reset)
  · by_cases host : (takeTurn (r n)).1 = .host
    · exact .inl (.inr (complete same lifted host))
    · obtain ⟨hold, still⟩ := run.keeps_holdLifted (inv n) lifted host reset
      exact .inr (.inr ⟨⟨hold.trans same, still⟩, le_rfl⟩)

end

/-- Settles O58: the hold is lifted by PLAYER or TIMER, and the command then completes in HOST's turn. -/
theorem heldCommandsCompleteInFairRuns : Obligations.HeldCommandsCompleteInFairRuns := by
  intro r k run start
  refine ⟨run.stop_lifted start, run.wait_lifted, fun player timer host held => ?_⟩
  have comes : ∃ n, k ≤ n ∧ ((takeTurn (r n)).1 = .reset ∨ ((r n).hold = (r k).hold ∧ (r n).holdLifted)) := by
    cases hold : (r k).hold with
    | none => exact absurd hold held
    | hStop =>
      obtain ⟨n, le, lifted⟩ := run.stop_lifted start player hold
      exact ⟨n, le, lifted.imp_right fun stop => ⟨stop.1, .inl stop⟩⟩
    | hWait =>
      obtain ⟨n, le, lifted⟩ := run.wait_lifted timer hold
      exact ⟨n, le, lifted.imp_right fun wait => ⟨wait.1, .inr wait⟩⟩
  obtain ⟨n, le, reset | ⟨same, lifted⟩⟩ := comes
  · exact ⟨n, le, .inl reset⟩
  · obtain ⟨m, le', completed⟩ := run.lifted_completes start host lifted
    exact ⟨m, le.trans le', same ▸ completed⟩

end Sys2Proof.Machine
end

section
/-! PROOFS. AnimationController's commands (43_animation_controller.md R191, R192, R195, R196, R198): the sweep and ASTEP,
WAIT and its completion, ARUN. -/

namespace Sys2Proof.Machine

/-! The sweep. -/

theorem dirBit_eq (d : Dir) : d.bit = decide (d = .falling) := by cases d <;> rfl

/-- R192 S1: from the window the sweep goes to a position in the window. -/
theorem sweepNext_window {p : BitVec 5} (d : Dir) (low : 16 ≤ p.toNat) (high : p.toNat ≤ 20) :
    16 ≤ (sweepNext p d).1.toNat ∧ (sweepNext p d).1.toNat ≤ 20 := by
  obtain ⟨_, _, e⟩ | ⟨_, _, e⟩ | ⟨_, _, e⟩ | ⟨_, _, e⟩ := sweepNext_cases p d <;> rw [e]
  · exact ⟨low, high⟩
  · dsimp only; bv_omega
  · exact ⟨low, high⟩
  · dsimp only; bv_omega

/-- The position the sweep writes is the number of an entry. -/
theorem sweepNext_lt_nent {p : BitVec 5} (d : Dir) (low : 16 ≤ p.toNat) (high : p.toNat ≤ 20) :
    (sweepNext p d).1.toNat < Config.nent :=
  Nat.lt_of_le_of_lt (sweepNext_window d low high).2 (by decide)

/-- R192 S2: the direction changes at the boundary in the direction of travel alone. -/
theorem sweepNext_flips_iff (p : BitVec 5) (d : Dir) :
    (sweepNext p d).2 ≠ d ↔ (d = .rising ∧ p = 20) ∨ (d = .falling ∧ p = 16) := by
  obtain ⟨rfl, h, e⟩ | ⟨rfl, h, e⟩ | ⟨rfl, h, e⟩ | ⟨rfl, h, e⟩ := sweepNext_cases p d <;> simpa [e] using h

/-- R192 S2: the position stands still where the direction changes. -/
theorem sweepNext_stands_iff (p : BitVec 5) (d : Dir) : (sweepNext p d).1 = p ↔ (sweepNext p d).2 ≠ d := by
  obtain ⟨rfl, _, e⟩ | ⟨rfl, _, e⟩ | ⟨rfl, _, e⟩ | ⟨rfl, _, e⟩ := sweepNext_cases p d <;> simp [e]

/-- R191: the four transitions, the moves as numbers. -/
theorem sweepNext_moves {p q : BitVec 5} {d e : Dir} (transition : (q, e) = sweepNext p d)
    (low : 16 ≤ p.toNat) (high : p.toNat ≤ 20) :
    (d = .rising → p = 20 → q = 20 ∧ e = .falling) ∧
    (d = .rising → p ≠ 20 → q.toNat = p.toNat + 1 ∧ e = .rising) ∧
    (d = .falling → p = 16 → q = 16 ∧ e = .rising) ∧
    (d = .falling → p ≠ 16 → q.toNat + 1 = p.toNat ∧ e = .falling) := by
  obtain ⟨rfl, at20, moved⟩ | ⟨rfl, not20, moved⟩ | ⟨rfl, at16, moved⟩ | ⟨rfl, not16, moved⟩ := sweepNext_cases p d <;>
    obtain ⟨rfl, rfl⟩ := Prod.mk.inj (transition.trans moved)
  · exact ⟨fun _ _ => ⟨at20, rfl⟩, fun _ not20 => absurd at20 not20, nofun, nofun⟩
  · exact ⟨fun _ at20 => absurd at20 not20, fun _ _ => ⟨by bv_omega, rfl⟩, nofun, nofun⟩
  · exact ⟨nofun, nofun, fun _ _ => ⟨at16, rfl⟩, fun _ not16 => absurd at16 not16⟩
  · exact ⟨nofun, nofun, fun _ at16 => absurd at16 not16, fun _ _ => ⟨by bv_omega, rfl⟩⟩

/-- Settles O41: S1 and S2 by the four transitions; S6 by going round from each of the ten pairs. -/
theorem sweepIsBoundedAndPeriodic : Obligations.SweepIsBoundedAndPeriodic := by
  refine fun p d low high => ⟨sweepNext_window d low high, sweepNext_flips_iff p d, sweepNext_stands_iff p d, ?_⟩
  have window : p = 16 ∨ p = 17 ∨ p = 18 ∨ p = 19 ∨ p = 20 := by bv_omega
  obtain rfl | rfl | rfl | rfl | rfl := window <;> cases d <;> rfl

/-- The sweep writes one entry, which exists. -/
theorem sweep_eq (s : State) (entry : (sweepNext s.pos s.dir).1.toNat < Config.nent) :
    sweep s = .next { s with
      pos := (sweepNext s.pos s.dir).1, dir := (sweepNext s.pos s.dir).2,
      sb := s.sb.set _ (code (sweepNext s.pos s.dir).2.bit) entry } := storeEntry_of_lt _ _ entry

/-- R191, R202: from the window the sweep makes its transition, writes CODE(DIR') at POS' and changes nothing else. -/
theorem sweep_writes {s : State} (low : 16 ≤ s.pos.toNat) (high : s.pos.toNat ≤ 20) :
    ∃ t, sweep s = .next t ∧ (t.pos, t.dir) = sweepNext s.pos s.dir ∧
      readEntry t.sb t.pos.toNat = some (dutyNumber (decide (t.dir = .falling))) ∧
      (∀ j, j ≠ t.pos.toNat → readEntry t.sb j = readEntry s.sb j) ∧
      t = { s with pos := t.pos, dir := t.dir, sb := t.sb } := by
  have entry := sweepNext_lt_nent s.dir low high
  have reads := readEntry_writeEntry (writeEntry_of_lt s.sb (code (sweepNext s.pos s.dir).2.bit) entry)
  refine ⟨_, sweep_eq s entry, rfl, ?_, fun j other => ?_, rfl⟩
  · rw [reads, if_pos rfl, code_eq_dutyNumber, dirBit_eq]
  · rw [reads, if_neg other]

/-! ASTEP. -/

/-- Past its checks ASTEP is the sweep (R191). -/
theorem exec_astep_owned {s : State} (host : s.run = false) (owned : s.lent = false) :
    exec .astep s = sweep s.answerOk :=
  (inHostMode_host _ host).trans (whileOwned_owned _ owned)

theorem exec_astep_lent {s : State} (host : s.run = false) (lent : s.lent = true) :
    exec .astep s = raise .ownership s :=
  (inHostMode_host _ host).trans (whileOwned_lent _ lent)

/-- Settles O28: past its checks ASTEP is the sweep, whose transition is one of the four. -/
theorem astepMovesAndWritesOneEntry : Obligations.AstepMovesAndWritesOneEntry := by
  refine fun s host => ⟨exec_astep_lent host, fun owned low high => ?_⟩
  obtain ⟨t, answers, transition, wrote, others, same⟩ := sweep_writes (s := s.answerOk) low high
  obtain ⟨top, up, bottom, down⟩ := sweepNext_moves transition low high
  exact ⟨t, (exec_astep_owned host owned).trans answers, top, up, bottom, down, wrote, others, same⟩

/-! WAIT. -/

/-- R195: past the lock-out WAIT asks nothing. -/
theorem exec_wait_host {s : State} (host : s.run = false) :
    exec .wait s = .next { s with waiting := true, hold := .hWait, resp := none } := inHostMode_host _ host

/-- R195: HOST's turn completes a held WAIT once the timer has expired. -/
theorem hostStep_of_wait_expired {s : State} (held : s.hold = .hWait) (expired : s.waiting = false) :
    hostStep s = .next (completeWait s) := by
  simp only [hostStep, held, if_neg (ne_true_of_eq_false expired)]

/-- R195: before that a held WAIT gives HOST no step. -/
theorem hostStep_of_wait_armed {s : State} (held : s.hold = .hWait) (armed : s.waiting = true) :
    hostStep s = .next s := by
  simp only [hostStep, held, if_pos armed]

/-- Settles O27: the issue past the lock-out, TIMER's turn, then HOST's turn while WAIT is held. -/
theorem waitHoldsUntilTheTimerExpires : Obligations.WaitHoldsUntilTheTimerExpires := by
  refine fun s => ⟨fun host => ⟨_, exec_wait_host host, rfl⟩, fun u turn _ => step_of_turn turn,
    fun u turn held expired => ?_, fun u turn held armed => ?_⟩ <;>
    obtain ⟨sched, turns, rfl⟩ := exists_of_takeTurn turn
  · exact (step_of_turn turn).trans
      (hostStep_of_wait_expired (s := { s with sched := sched, turns := turns }) held expired)
  · exact (step_of_turn turn).trans
      (hostStep_of_wait_armed (s := { s with sched := sched, turns := turns }) held armed)

/-! ARUN. -/

/-- In host mode ARUN runs the checks it shares with START (R198, R229). -/
theorem exec_arun_host {s : State} (host : s.run = false) (n : BitVec 16) :
    exec (.arun n) s = playbackChecks n s (.next ({ s with run := true, aphase := .aStart, arpt := n }.answerOk)) :=
  inHostMode_host _ host

/-- Settles O29: the three outcomes of ARUN's checks. -/
theorem arunEntersRunMode : Obligations.ArunEntersRunMode := by
  intro s n host
  rw [exec_arun_host host]
  exact ⟨playbackChecks_config _, playbackChecks_lent _, playbackChecks_idle _⟩

end Sys2Proof.Machine
end

section
/-! PROOFS. RUN mode (43_animation_controller.md R199 to R203): ANIMATOR's four steps, what they have in common with the
commands of FRAME (R197), and the lock-out of HOST. -/

namespace Sys2Proof.Machine

/-! ANIMATOR's step, phase by phase. -/

section
variable {s : State} (run : s.run = true)
include run

/-- A_START (R199). -/
theorem animatorStep_of_start (phase : s.aphase = .aStart) :
    animatorStep s = .next { beginPlayback s.arpt s with waiting := true, aphase := .aWait } := by
  simp only [animatorStep, if_pos run, phase]

/-- A_WAIT (R200). -/
theorem animatorStep_of_wait (phase : s.aphase = .aWait) (expired : s.waiting = false) :
    animatorStep s = .next { s with aphase := .aStop } := by
  simp only [animatorStep, if_pos run, phase, if_neg (ne_true_of_eq_false expired)]

/-- A_STOP (R201). -/
theorem animatorStep_of_stop (phase : s.aphase = .aStop) (done : s.pstate = .done) :
    animatorStep s = .next { releasePlayback s with aphase := .aMutate } := by
  simp only [animatorStep, if_pos run, phase, if_pos done]

/-- R201: before DONE A_STOP is not enabled. -/
theorem animatorStep_of_stop_waits (phase : s.aphase = .aStop) (waits : s.pstate ≠ .done) :
    animatorStep s = .next s := by
  simp only [animatorStep, if_pos run, phase, if_neg waits]

/-- A_MUTATE (R202). -/
theorem animatorStep_of_mutate (phase : s.aphase = .aMutate) : animatorStep s = sweep { s with aphase := .aStart } := by
  simp only [animatorStep, if_pos run, phase]

end

/-- Settles O42: ANIMATOR's turn takes the step of its phase; A_MUTATE's is the sweep. -/
theorem animatorTakesItsFourSteps : Obligations.AnimatorTakesItsFourSteps := by
  intro s u turn run
  obtain ⟨sched, turns, rfl⟩ := exists_of_takeTurn turn
  have run' : { s with sched := sched, turns := turns }.run = true := run
  rw [step_of_turn turn, runTurn]
  refine ⟨animatorStep_of_start run', animatorStep_of_wait run', animatorStep_of_stop run', fun phase playing => ?_,
    fun phase low high => ?_⟩
  · exact animatorStep_of_stop_waits run' phase (by simp [playing])
  · obtain ⟨t, answers, effect⟩ :=
      sweep_writes (s := { s with sched := sched, turns := turns, aphase := .aStart }) low high
    exact ⟨t, (animatorStep_of_mutate run' phase).trans answers, effect⟩

/-- R170: STOP is held while the buffer is lent. -/
theorem exec_stop_lent {s : State} (host : s.run = false) (lent : s.pstate ≠ .idle) :
    exec .stop s = .next { s with hold := .hStop, resp := none } :=
  (inHostMode_host _ host).trans (if_neg lent)

/-- Settles O43: in each phase the invariants (I2, I7, I8) give the commands what their checks ask, and the effects agree
outside the issuer's bookkeeping. -/
theorem runModeLoopIsTheHostLoop : Obligations.RunModeLoopIsTheHostLoop := by
  intro s h run
  obtain ⟨valid, rpt, _⟩ := h.running run
  refine ⟨fun phase => ?_, fun phase expired => ?_, fun phase done => ?_, fun phase => ?_⟩
  · have idle : s.pstate = .idle := h.phaseOwned run (.inl phase)
    have started := (exec_start_host (s := { s with run := false }) rfl s.arpt).trans
      (playbackChecks_idle _ valid (by bv_omega) idle)
    exact ⟨_, _, _, animatorStep_of_start run phase, started, rfl, exec_wait_host rfl, rfl⟩
  · have completed := hostStep_of_wait_expired (s := { s with run := false, hold := .hWait }) rfl expired
    exact ⟨_, _, animatorStep_of_wait run phase expired, completed, rfl, rfl⟩
  · have issued := exec_stop_lent (s := { s with run := false }) rfl (by simp [done])
    have completed := hostStep_of_stop_done (s := { s with run := false, hold := .hStop, resp := none }) rfl done
    exact ⟨_, _, _, animatorStep_of_stop run phase done, issued, completed, rfl, rfl⟩
  · have owned : s.lent = false := (not_lent_iff s).2 (h.phaseOwned run (.inr phase))
    have entry := sweepNext_lt_nent s.dir h.window.1 h.window.2
    have mutated := (animatorStep_of_mutate run phase).trans (sweep_eq { s with aphase := .aStart } entry)
    have swept := (exec_astep_owned (s := { s with run := false }) rfl owned).trans
      (sweep_eq (State.answerOk { s with run := false }) entry)
    exact ⟨_, _, mutated, swept, rfl, rfl⟩

/-- ANIMATOR answers nothing and sets no flag (R203): each of its steps, the sweep of A_MUTATE included, leaves them. -/
theorem animatorStep_silent {s t : State} (hr : animatorStep s = .next t) :
    t.eCfg = s.eCfg ∧ t.eBusy = s.eBusy ∧ t.eIll = s.eIll ∧ t.fOwn = s.fOwn ∧ t.resp = s.resp := by
  obtain ⟨_, e⟩ | ⟨_, _, e⟩ | ⟨_, _, _, e⟩ | ⟨_, _, _, e⟩ | ⟨_, _, _, e⟩ | ⟨_, _, _, e⟩ | ⟨_, _, e⟩ :=
    animatorStep_cases s <;> rw [e] at hr
  rotate_right
  · obtain ⟨_, _, rfl⟩ := sweep_next hr
    exact ⟨rfl, rfl, rfl, rfl, rfl⟩
  all_goals
    cases hr
    exact ⟨rfl, rfl, rfl, rfl, rfl⟩

/-- Settles O54: no step of ANIMATOR goes through a raise or an answer. -/
theorem animatorRaisesNothing : Obligations.AnimatorRaisesNothing := by
  intro s u t _ turn hs
  obtain ⟨sched, turns, rfl⟩ := exists_of_takeTurn turn
  exact (animatorStep_silent ((step_of_turn turn).symm.trans hs) :)

/-! HOST in RUN mode. -/

/-- `t` is `s` up to E_BUSY, E_ILL, HOST's answer and HOST's list of commands: the loop of `s` is undisturbed. -/
def SameLoop (s t : State) : Prop := t = { s with eBusy := t.eBusy, eIll := t.eIll, resp := t.resp, cmds := t.cmds }

/-- The outcome is a next state with the loop of `s`. -/
def KeepsLoop (s : State) (r : Result) : Prop := ∃ t, r = .next t ∧ SameLoop s t

theorem KeepsLoop.busy {s : State} {r : Result} (e : r = raise .busy s) : KeepsLoop s r := ⟨_, e, rfl⟩

theorem KeepsLoop.illegal {s : State} {r : Result} (e : r = raise .illegal s) : KeepsLoop s r := ⟨_, e, rfl⟩

theorem KeepsLoop.answered {s : State} {r : Result} {v : Word} (e : r = .next (s.answer .ok v)) : KeepsLoop s r :=
  ⟨_, e, rfl⟩

/-- The lock-out (R203, R229): in RUN mode a legal command that does more than read raises ERR_BUSY. -/
theorem exec_lockedOut {s : State} (run : s.run = true) {i : Instr} (legal : i.wellFormed = true)
    (command : i.isCommand = true) (writes : i.onlyReads = false) : exec i s = raise .busy s := by
  cases i with
  | write i b =>
    have below : ¬24 ≤ i.toNat := Nat.not_le.2 (Nat.lt_succ_of_le (of_decide_eq_true legal))
    exact (if_neg below).trans (inHostMode_run _ run)
  | read => cases writes
  | rdcsr => cases writes
  | sym0 => cases command
  | sym1 => cases command
  | symr => cases command
  | _ => exact inHostMode_run _ run

/-- R203: in RUN mode a command is locked out or only reads. -/
theorem exec_keepsLoop {s : State} (run : s.run = true) {i : Instr} (legal : i.wellFormed = true)
    (command : i.isCommand = true) : KeepsLoop s (exec i s) := by
  cases reads : i.onlyReads with
  | false => exact .busy (exec_lockedOut run legal command reads)
  | true =>
    cases i with
    | read i =>
      obtain ⟨_, e⟩ | ⟨_, _, _, e⟩ := execRead_cases i s
      · exact .illegal e
      · exact .answered e
    | rdcsr n =>
      obtain ⟨_, e⟩ | ⟨_, _, e⟩ := execRdcsr_cases n s
      · exact .illegal e
      · exact .answered e
    | _ => cases reads

/-- A word that decodes is a legal command (R108); any other raises ERR_ILLEGAL (R223). -/
theorem presentWord_keepsLoop {s : State} (run : s.run = true) (w : Word) : KeepsLoop s (presentWord w s) := by
  obtain ⟨i, hi, e⟩ | ⟨_, _, e⟩ := presentWord_cases w s
  · obtain ⟨legal, _⟩ := decodedWordIsItsOnlyEncoding _ i hi
    exact e ▸ exec_keepsLoop run legal (decode_cmd_isCommand hi)
  · exact .illegal e

/-- HOST that is not held presents its next word, or has no step (log 2). -/
theorem hostStep_keepsLoop {s : State} (run : s.run = true) (free : s.hold = .none) : KeepsLoop s (hostStep s) := by
  cases cmds : s.cmds with
  | nil => exact ⟨s, by simp only [hostStep, free, cmds], rfl⟩
  | cons w rest =>
    obtain ⟨t, e, same⟩ := presentWord_keepsLoop (s := { s with cmds := rest }) run w
    exact ⟨t, (hostStep_of_cmds free cmds).trans e, same⟩

/-- Settles O53: in RUN mode HOST is not held (I7), and the word it presents is locked out, illegal, or only reads. -/
theorem hostCannotDisturbTheLoop : Obligations.HostCannotDisturbTheLoop := by
  intro s u t h run turn hs
  obtain ⟨_, _, free⟩ := h.running run
  obtain ⟨sched, turns, rfl⟩ := exists_of_takeTurn turn
  obtain ⟨t', e, same⟩ := hostStep_keepsLoop (s := { s with sched := sched, turns := turns }) run free
  obtain rfl := next_inj.1 (((step_of_turn turn).trans e).symm.trans hs)
  exact same

end Sys2Proof.Machine
end

section
/-! PROOFS. The causes (60_exceptions.md R221 to R229): where each is raised, in the order of the checks, and that it
records its own flag alone. -/

namespace Sys2Proof.Machine

/-! The illegal word and the illegal operand come first. -/

/-- R108: the word of a well-formed command has a legal OP, reserved bits 0 and its index in range. -/
theorem encode_not_illegal {i : Instr} (legal : i.wellFormed = true) : ∀ w, encode i = .cmd32 w → ¬illegalWord w := by
  cases i with
  | sym0 | sym1 | symr => nofun
  | write | read | rdcsr =>
    simp_all [illegalWord, field, Instr.wellFormed, -BitVec.extractLsb'_toNat]
    bv_omega
  | _ => simp_all [illegalWord, field, -BitVec.extractLsb'_toNat]

/-- R223: an illegal word decodes to nothing, since a word that decodes is the encoding of a well-formed command. -/
theorem presentWord_illegal {w : Word} (illegal : illegalWord w) (s : State) : presentWord w s = raise .illegal s := by
  obtain ⟨i, hi, _⟩ | ⟨_, _, raises⟩ := presentWord_cases w s
  · obtain ⟨legal, word⟩ := decodedWordIsItsOnlyEncoding _ i hi
    exact absurd illegal (encode_not_illegal legal w word)
  · exact raises

/-- Settles O8: the word is taken off HOST's list, and an illegal word raises ERR_ILLEGAL. -/
theorem illegalWordRecordsOnlyEIll : Obligations.IllegalWordRecordsOnlyEIll := by
  intro s u w rest turn hold cmds illegal
  exact (step_of_presented turn hold cmds).trans (presentWord_illegal illegal _)

/-- R63, R108: an index out of range raises ERR_ILLEGAL whatever the mode and the lend. -/
theorem exec_illFormed {i : Instr} (illegal : i.wellFormed = false) (s : State) : exec i s = raise .illegal s := by
  cases i with
  | write i b => exact if_pos (Nat.lt_of_not_le (of_decide_eq_false illegal))
  | read i =>
    obtain ⟨_, raises⟩ | ⟨below, _⟩ := execRead_cases i s
    · exact raises
    · exact absurd (Nat.le_of_lt_succ below) (of_decide_eq_false illegal)
  | rdcsr n =>
    obtain rfl : n = 7 := by have := of_decide_eq_false illegal; bv_omega
    rfl
  | _ => cases illegal

/-- Settles O15: the illegal operand, then the lock-out. -/
theorem commonChecksComeFirst : Obligations.CommonChecksComeFirst := fun _ s =>
  ⟨fun illegal => exec_illFormed illegal s, fun legal command writes run => exec_lockedOut run legal command writes⟩

/-! The checks of the commands. -/

/-- Settles O13: the checks START and ARUN share, SETDELAY's own, and the lock-out. -/
theorem busyErrorRecordsOnlyEBusy : Obligations.BusyErrorRecordsOnlyEBusy := by
  refine fun s => ⟨fun host n valid nonzero lent => ⟨?_, ?_⟩, fun host d lent => ?_, fun run i => exec_lockedOut run⟩
  · exact (exec_start_host host n).trans (playbackChecks_lent _ valid nonzero lent)
  · exact (exec_arun_host host n).trans (playbackChecks_lent _ valid nonzero lent)
  · exact (setdelayLoadsEndDelay s d host).2 lent

/-- R152: in host mode CONFIGURE is refused once CFG_STATE has left UNCONFIGURED. -/
theorem exec_configure_again {s : State} (host : s.run = false) (made : s.cfgState ≠ .unconfigured) (d : BitVec 3)
    (t : BitVec 16) (l : Load) (p : BitVec 8) : exec (.configure d t l p) s = raise .config s :=
  (inHostMode_host _ host).trans (if_pos made)

/-- R151, R152: a bad argument leaves CFG_STATE = FAILED beside the error. -/
theorem exec_configure_bad {s : State} (host : s.run = false) (unconfigured : s.cfgState = .unconfigured) {d : BitVec 3}
    {t : BitVec 16} {l : Load} (bad : cfgOk d t l = false) (p : BitVec 8) :
    exec (.configure d t l p) s = raise .config { s with cfgState := .failed } :=
  (inHostMode_host _ host).trans <|
    (if_neg (not_not.2 unconfigured)).trans (if_neg (ne_true_of_eq_false bad))

/-- Settles O12: the two refusals of CONFIGURE, and the first check START and ARUN share. -/
theorem configErrorRecordsOnlyECfg : Obligations.ConfigErrorRecordsOnlyECfg := fun _ host =>
  ⟨fun d t l p made => exec_configure_again host made d t l p,
    fun _ _ _ p unconfigured bad => exec_configure_bad host unconfigured bad p,
    fun n bad => ⟨(exec_start_host host n).trans (playbackChecks_config _ bad),
      (exec_arun_host host n).trans (playbackChecks_config _ bad)⟩⟩

/-- Settles O14: the ownership check of each of the three writers. -/
theorem ownershipFaultRecordsOnlyFOwn : Obligations.OwnershipFaultRecordsOnlyFOwn := fun _ host lent =>
  ⟨fun c => exec_encode_lent host c lent, fun _ b below => exec_write_lent host below b lent, exec_astep_lent host lent⟩

end Sys2Proof.Machine
end

section
/-! PROOFS. The lend (60_exceptions.md R240): the only steps that give the buffer to PLAYER and the only ones that give it
back. -/

namespace Sys2Proof.Machine

/-! HOST's commands: START alone writes PSTATE. -/

/-- The next state, if the outcome is one, has the PSTATE of `s`. -/
def KeepsPState (s : State) (r : Result) : Prop := ∀ t, r = .next t → t.pstate = s.pstate

/-- Answers and raised causes alike (R96, R224): the outcome is a next state. -/
theorem KeepsPState.answered {s t : State} {r : Result} (e : r = .next t) (same : t.pstate = s.pstate := by rfl) :
    KeepsPState s r := by
  subst e
  rintro _ ⟨⟩
  exact same

theorem storeEntry_keepsPState (i : Nat) (w : Duty) (s : State) : KeepsPState s (storeEntry i w s) := by
  intro t hr
  obtain ⟨_, _, rfl⟩ := storeEntry_next hr
  rfl

theorem sweep_keepsPState (s : State) : KeepsPState s (sweep s) := storeEntry_keepsPState _ _ { s with pos := _, dir := _ }

section
variable {s : State} {k l : Result} (keeps : KeepsPState s k)
include keeps

theorem KeepsPState.ite (keeps' : KeepsPState s l) {p : Prop} [Decidable p] : KeepsPState s (if p then k else l) := by
  split
  · exact keeps
  · exact keeps'

theorem inHostMode_keepsPState : KeepsPState s (inHostMode s k) := .ite (.answered rfl) keeps

theorem whileOwned_keepsPState : KeepsPState s (whileOwned s k) := .ite (.answered rfl) keeps

theorem playbackChecks_keepsPState (n : BitVec 16) : KeepsPState s (playbackChecks n s k) :=
  .ite (.answered rfl) (.ite (.answered rfl) (.ite (.answered rfl) keeps))

end

theorem exec_keepsPState {i : Instr} (command : i.isCommand = true) (notStart : ∀ n, i ≠ .start n) (s : State) :
    KeepsPState s (exec i s) := by
  cases i with
  | configure d t l p =>
    exact inHostMode_keepsPState (.ite (.answered rfl) (.ite (.answered rfl) (.answered rfl)))
  | setdelay d => exact inHostMode_keepsPState (.ite (.answered rfl) (.answered rfl))
  | encode c =>
    obtain ⟨_, e⟩ | ⟨_, _, e⟩ | ⟨_, _, b, _, e⟩ := execEncode_cases c s
    · exact .answered e
    · exact .answered e
    · exact .answered e
  | write i b =>
    exact .ite (.answered rfl) (inHostMode_keepsPState (whileOwned_keepsPState (storeEntry_keepsPState _ _ s.answerOk)))
  | read i =>
    obtain ⟨_, e⟩ | ⟨_, _, _, e⟩ := execRead_cases i s
    · exact .answered e
    · exact .answered e
  | rdcsr n =>
    obtain ⟨_, e⟩ | ⟨_, _, e⟩ := execRdcsr_cases n s
    · exact .answered e
    · exact .answered e
  | start n => exact absurd rfl (notStart n)
  | stop => exact inHostMode_keepsPState (.ite (.answered rfl) (.answered rfl))
  | wait => exact inHostMode_keepsPState (.answered rfl)
  | astep => exact inHostMode_keepsPState (whileOwned_keepsPState (sweep_keepsPState s.answerOk))
  | arun n => exact inHostMode_keepsPState (playbackChecks_keepsPState (.answered rfl) n)
  | sym0 => cases command
  | sym1 => cases command
  | symr => cases command

/-- START leaves PSTATE or begins a playback (R160). -/
theorem execStart_pstate {n : BitVec 16} {s t : State} (hr : execStart n s = .next t) :
    t.pstate = s.pstate ∨ t.pstate = .playing := by
  obtain ⟨_, e⟩ | ⟨_, _, e⟩ | ⟨_, _, _, _, e⟩ | ⟨_, _, _, _, e⟩ := execStart_cases n s <;> cases e.symm.trans hr
  · exact .inl rfl
  · exact .inl rfl
  · exact .inl rfl
  · exact .inr rfl

/-- A presented word leaves PSTATE, or it is START's and begins a playback. -/
theorem presentWord_pstate {w : Word} {s t : State} (hr : presentWord w s = .next t) :
    t.pstate = s.pstate ∨ (t.pstate = .playing ∧ ∃ n, decode (.cmd32 w) = .ok (.start n)) := by
  obtain ⟨i, hi, e⟩ | ⟨_, _, e⟩ := presentWord_cases w s
  · have runs := e.symm.trans hr
    by_cases start : ∃ n, i = .start n
    · obtain ⟨n, rfl⟩ := start
      exact (execStart_pstate runs).imp_right fun playing => ⟨playing, n, hi⟩
    · exact .inl (exec_keepsPState (decode_cmd_isCommand hi) (not_exists.1 start) s t runs)
  · cases e.symm.trans hr
    exact .inl rfl

/-! The agents. -/

/-- From `s` to `t` the buffer becomes lent only with `began`, and owned again only with `ended`. -/
def LendMoves (s t : State) (began ended : Prop) : Prop :=
  (s.lent = false → t.lent = true → began) ∧ (s.lent = true → t.lent = false → ended)

section
variable {s t : State} {began ended : Prop}

theorem lent_congr (same : t.pstate = s.pstate) : t.lent = s.lent := by rw [State.lent, same, State.lent]

theorem LendMoves.same (same : t.pstate = s.pstate) : LendMoves s t began ended := by
  have same := lent_congr same
  exact ⟨fun owned lent => by simp [same, owned] at lent, fun lent owned => by simp [same, lent] at owned⟩

theorem LendMoves.begins (lent : t.pstate ≠ .idle) (h : began) : LendMoves s t began ended :=
  ⟨fun _ _ => h, fun _ owned => absurd ((not_lent_iff t).1 owned) lent⟩

theorem LendMoves.ends (owned : t.pstate = .idle) (h : ended) : LendMoves s t began ended :=
  ⟨fun _ lent => absurd owned ((lent_iff t).1 lent), fun _ _ => h⟩

theorem LendMoves.staysLent (before : s.pstate ≠ .idle) (after : t.pstate ≠ .idle) : LendMoves s t began ended :=
  ⟨fun owned => absurd ((not_lent_iff s).1 owned) before, fun _ owned => absurd ((not_lent_iff t).1 owned) after⟩

end

/-- HOST lends by START and takes back by completing a held STOP (R160, R170). -/
theorem hostStep_lend {s t : State} (hr : hostStep s = .next t) :
    LendMoves s t (s.hold = .none ∧ ∃ w rest n, s.cmds = w :: rest ∧ decode (.cmd32 w) = .ok (.start n))
      (s.hold = .hStop ∧ s.pstate = .done) := by
  obtain ⟨held, done, e⟩ | ⟨_, _, e⟩ | ⟨_, _, e⟩ | ⟨_, _, e⟩ | ⟨_, _, e⟩ | ⟨w, rest, free, cmds, e⟩ := hostStep_cases s <;>
    rw [e] at hr
  rotate_right
  · obtain same | ⟨playing, n, start⟩ := presentWord_pstate hr
    · exact .same same
    · exact .begins (by simp [playing]) ⟨free, w, rest, n, cmds, start⟩
  all_goals cases hr
  · exact .ends rfl ⟨held, done⟩
  all_goals exact .same rfl

/-! PLAYER (R178). -/

theorem endPass_lent {s : State} (playing : s.pstate = .playing) : (endPass s).pstate ≠ .idle := by
  obtain ⟨_, e⟩ | ⟨_, e⟩ := endPass_cases s <;> simp [e, playing]

theorem delayTick_lent {s : State} (playing : s.pstate = .playing) : (delayTick s).pstate ≠ .idle := by
  obtain ⟨_, e⟩ | ⟨_, e⟩ := delayTick_cases s <;> rw [e]
  · simp [playing]
  · exact endPass_lent playing

theorem advance_lent {s : State} (playing : s.pstate = .playing) : (advance s).pstate ≠ .idle := by
  obtain ⟨_, e⟩ | ⟨_, _, e⟩ | ⟨_, _, _, e⟩ | ⟨_, _, _, e⟩ := advance_cases s <;> rw [e]
  rotate_right
  · exact endPass_lent playing
  all_goals simp [playing]

/-- PLAYER ends a playback in DONE, which is still lent (R28). -/
theorem playerStep_lend {s t : State} (hr : playerStep s = .next t) : LendMoves s t False False := by
  obtain ⟨_, e⟩ | ⟨playing, _, e⟩ | ⟨w, playing, _, _, e⟩ | ⟨_, _, _, e⟩ := playerStep_cases s <;> cases e.symm.trans hr
  · exact .same rfl
  · exact .staysLent (by simp [playing]) (delayTick_lent playing)
  · exact .staysLent (by simp [playing]) (advance_lent playing)

/-- ANIMATOR lends by A_START and takes back by A_STOP (R199, R201). -/
theorem animatorStep_lend {s t : State} (hr : animatorStep s = .next t) :
    LendMoves s t (s.run = true ∧ s.aphase = .aStart) (s.run = true ∧ s.aphase = .aStop ∧ s.pstate = .done) := by
  obtain ⟨_, e⟩ | ⟨run, phase, e⟩ | ⟨_, _, _, e⟩ | ⟨_, _, _, e⟩ | ⟨_, _, _, e⟩ | ⟨run, phase, done, e⟩ | ⟨_, _, e⟩ :=
    animatorStep_cases s <;> rw [e] at hr
  rotate_right
  · exact .same (sweep_keepsPState { s with aphase := .aStart } t hr)
  all_goals cases hr
  · exact .same rfl
  · exact .begins nofun ⟨run, phase⟩
  · exact .same rfl
  · exact .same rfl
  · exact .same rfl
  · exact .ends rfl ⟨run, phase, done⟩

/-- The same for every turn. -/
theorem runTurn_lend {a : Turn} {s t : State} (hr : runTurn a s = .next t) :
    LendMoves s t
      ((a = .host ∧ s.hold = .none ∧ ∃ w rest n, s.cmds = w :: rest ∧ decode (.cmd32 w) = .ok (.start n)) ∨
        (a = .animator ∧ s.run = true ∧ s.aphase = .aStart))
      ((a = .host ∧ s.hold = .hStop ∧ s.pstate = .done) ∨
        (a = .animator ∧ s.run = true ∧ s.aphase = .aStop ∧ s.pstate = .done) ∨ a = .reset) := by
  cases a with
  | host => simpa using hostStep_lend hr
  | player => simpa using playerStep_lend hr
  | timer =>
    cases hr
    exact .same rfl
  | animator => simpa using animatorStep_lend hr
  | reset =>
    cases hr
    exact .ends rfl (.inr (.inr rfl))

/-- Settles O48: each agent's turn moves the lend by its own steps alone, and a reset ends it. -/
theorem lendBeginsByStartAndEndsByStop : Obligations.LendBeginsByStartAndEndsByStop := by
  intro s t hs
  obtain ⟨sched, turns, taken⟩ := exists_of_takeTurn (Prod.eta (takeTurn s)).symm
  rw [step, taken] at hs
  exact runTurn_lend (s := { s with sched := sched, turns := turns }) hs

end Sys2Proof.Machine
end

section
/-! PROOFS. The bad states (60_exceptions.md R233): FAULTED and ERRED come from an error HOST is answered, and a held HOST
is never stuck. -/

namespace Sys2Proof.Machine

/-! FAULTED and ERRED. -/

/-- The four sticky flags are as they were. -/
def SameFlags (s t : State) : Prop := ∀ c, t.flag c = s.flag c

theorem clean_iff {s : State} : s.clean = true ↔ ∀ c, s.flag c = false := by
  refine ⟨fun clean c => ?_, fun flags => ?_⟩
  · cases c <;> simp_all [State.clean, State.faulted, State.erred, State.flag]
  · simp [State.clean, State.faulted, State.erred, show s.fOwn = false from flags .ownership,
      show s.eCfg = false from flags .config, show s.eBusy = false from flags .busy, show s.eIll = false from flags .illegal]

theorem SameFlags.clean {s t : State} (h : SameFlags s t) (clean : s.clean = true) : t.clean = true :=
  clean_iff.2 fun c => (h c).trans (clean_iff.1 clean c)

/-- R221, R224: a cause is raised from `s`, which a CONFIGURE with bad arguments may have left FAILED. -/
def RaisedFrom (s t : State) : Prop :=
  ∃ c cfg, t = ({ s with cfgState := cfg }.setFlag c).answer (.err c) 0

theorem raise_raisedFrom {s t : State} {c : Cause} (hr : raise c s = .next t) : RaisedFrom s t :=
  ⟨c, s.cfgState, raise_next hr⟩

/-- A command leaves the flags alone or raises a cause. -/
theorem CommandEffect.flags {s t : State} {r : Result} (he : CommandEffect s r) (hr : r = .next t) :
    SameFlags s t ∨ RaisedFrom s t := by
  cases he with
  | configFailed => exact .inr ⟨.config, .failed, raise_next hr⟩
  | swept => exact .inl (sweep_flag hr :)
  | _ => cases hr; exact .inl fun _ => rfl

/-- Every turn leaves the flags alone or raises a cause. -/
theorem TurnEffect.flags {s t : State} {r : Result} (he : TurnEffect s r) (hr : r = .next t) :
    SameFlags s t ∨ RaisedFrom s t := by
  cases he with
  | raised => exact .inr (raise_raisedFrom hr)
  | command _ _ effect => exact effect.flags hr
  | fetchFailed => cases hr
  | delayTicked => cases hr; exact .inl (delayTick_same s).flag
  | wordPlayed w => cases hr; exact .inl (playWord_same w s).flag
  | frameMutated => exact .inl (sweep_flag hr :)
  | _ => cases hr; exact .inl fun _ => rfl

/-- Only HOST's turn with a word to present can raise. -/
theorem hostStep_flags {s t : State} (hr : hostStep s = .next t) :
    SameFlags s t ∨ (s.hold = .none ∧ s.cmds ≠ [] ∧ ∃ rest, RaisedFrom { s with cmds := rest } t) := by
  obtain ⟨_, _, e⟩ | ⟨_, _, e⟩ | ⟨_, _, e⟩ | ⟨_, _, e⟩ | ⟨_, _, e⟩ | ⟨w, rest, free, cmds, e⟩ := hostStep_cases s <;>
    rw [e] at hr
  rotate_right
  · exact ((presentWord_effect w (s := { s with cmds := rest }) free).flags hr).imp_right fun raised =>
      ⟨free, by simp [cmds], rest, raised⟩
  all_goals
    cases hr
    exact .inl fun _ => rfl

theorem playerStep_flags {s t : State} (hr : playerStep s = .next t) : SameFlags s t := by
  obtain ⟨_, e⟩ | ⟨_, _, e⟩ | ⟨w, _, _, _, e⟩ | ⟨_, _, _, e⟩ := playerStep_cases s <;> cases e.symm.trans hr
  · exact fun _ => rfl
  · exact (delayTick_same s).flag
  · exact (playWord_same w s).flag

theorem animatorStep_flags {s t : State} (hr : animatorStep s = .next t) : SameFlags s t := by
  obtain ⟨cfg, busy, ill, own, _⟩ := animatorStep_silent hr
  rintro (_ | _ | _ | _)
  · exact cfg
  · exact busy
  · exact ill
  · exact own

/-- A turn that makes a CLEAN block bad is HOST's, who presents a word that raises. -/
theorem runTurn_raises {a : Turn} {s t : State} (hr : runTurn a s = .next t) (clean : s.clean = true)
    (bad : t.clean = false) : a = .host ∧ s.hold = .none ∧ s.cmds ≠ [] ∧ ∃ rest, RaisedFrom { s with cmds := rest } t := by
  have notSame (same : SameFlags s t) : False := by simp [same.clean clean] at bad
  cases a with
  | host => exact ⟨rfl, (hostStep_flags hr).resolve_left notSame⟩
  | player => exact (notSame (playerStep_flags hr)).elim
  | timer =>
    cases hr
    exact (notSame fun _ => rfl).elim
  | animator => exact (notSame (animatorStep_flags hr)).elim
  | reset =>
    cases hr
    cases bad

/-- R233: from a CLEAN state the raised cause tells FAULTED and ERRED apart. -/
theorem RaisedFrom.badState {s t : State} (h : RaisedFrom s t) (clean : s.clean = true) :
    ∃ c : Cause, t.resp = errAnswer c ∧ (t.faulted = true ↔ c = .ownership) ∧ (t.erred = true ↔ c ≠ .ownership) ∧
      t.sb = s.sb ∧ t.pstate = s.pstate := by
  obtain ⟨c, cfg, rfl⟩ := h
  refine ⟨c, rfl, ?_, ?_, setFlag_sb _ c, setFlag_pstate _ c⟩ <;>
    cases c <;> simp_all [State.clean, State.faulted, State.erred, State.setFlag, State.answer]

/-- Settles O55: the turn is HOST's and raises, and the raised cause sets its flag alone. -/
theorem badStatesComeFromAnsweredErrors : Obligations.BadStatesComeFromAnsweredErrors := by
  intro s t hs clean bad
  obtain ⟨sched, turns, taken⟩ := exists_of_takeTurn (Prod.eta (takeTurn s)).symm
  rw [step, taken] at hs
  obtain ⟨host, free, cmds, rest, raised⟩ :=
    runTurn_raises (s := { s with sched := sched, turns := turns }) hs clean bad
  exact ⟨host, free, cmds, raised.badState clean⟩

/-! A held HOST. -/

/-- I9: STOP is held under a lent buffer alone, so the playback goes on or is done. -/
theorem State.Inv.heldStop_enabled {s : State} (h : s.Inv) (held : s.hold = .hStop) :
    enabled .host s = true ∨ enabled .player s = true := by
  obtain ⟨lent, _⟩ := h.heldStop held
  rw [enabled_host_stop held, enabled_player]
  cases ps : s.pstate with
  | idle => exact absurd ps lent
  | playing => exact .inr rfl
  | done => exact .inl rfl

/-- A held WAIT completes when the timer is not armed, and TIMER has its step when it is. -/
theorem heldWait_enabled {s : State} (held : s.hold = .hWait) : enabled .host s = true ∨ enabled .timer s = true := by
  rw [enabled_host_wait held, enabled_timer]
  cases s.waiting
  · exact .inl rfl
  · exact .inr rfl

/-- Not stuck, if HOST's completion or the lifting agent's step is enabled. -/
theorem not_stuck {s : State} {t : Turn} (lifts : lifter s.hold = some t) (h : enabled .host s = true ∨ enabled t s = true) :
    s.stuck = false := by
  obtain h | h := h <;> simp [State.stuck, lifts, h]

/-- Settles O56: STOP is held under a lent buffer alone, and WAIT's timer is armed or has expired. -/
theorem heldHostIsNeverStuck : Obligations.HeldHostIsNeverStuck := by
  refine fun s h => ⟨?_, h.heldStop_enabled, heldWait_enabled⟩
  cases hold : s.hold with
  | none => simp [State.stuck, State.hostHeld, hold]
  | hStop => exact not_stuck (t := .player) (by rw [hold]; rfl) (h.heldStop_enabled hold)
  | hWait => exact not_stuck (t := .timer) (by rw [hold]; rfl) (heldWait_enabled hold)

end Sys2Proof.Machine
end

section
/-! PROOFS. The RUN-mode loop in fair runs (43_animation_controller.md R199 to R204; 60_exceptions.md R244): TIMER and PLAYER
make the step of ANIMATOR's phase enabled, it stays so until ANIMATOR takes it, and it leads to the next phase. -/

namespace Sys2Proof.Machine

/-- The phase ANIMATOR's step leads to (R199 to R202). -/
def APhase.next : APhase → APhase
  | .aStart => .aWait
  | .aWait => .aStop
  | .aStop => .aMutate
  | .aMutate => .aStart

/-- The loop comes from every phase to every other. -/
theorem APhase.exists_iterate_next (a p : APhase) : ∃ j, APhase.next^[j] a = p := by
  have within : ∃ j : Fin 4, APhase.next^[j] a = p := by cases a <;> cases p <;> decide
  exact ⟨_, within.choose_spec⟩

/-! One step. -/

/-- The phase stands, and what its step waits for stays true once it is: the timer has expired (R200), the playback is done
(R201). -/
def PhaseStands (s t : State) : Prop :=
  t.aphase = s.aphase ∧ (s.waiting = false → t.waiting = false) ∧ (s.pstate = .done → t.pstate = .done)

theorem PhaseStands.enabled {s t : State} (h : PhaseStands s t) (before : s.run = true) (after : t.run = true)
    (ready : enabled .animator s = true) : enabled .animator t = true := by
  obtain ⟨phase, waiting, done⟩ := h
  cases a : s.aphase with
  | aStart => exact enabled_animator_start after (phase.trans a)
  | aWait => simp_all [enabled_animator_wait]
  | aStop => simp_all [enabled_animator_stop]
  | aMutate => exact enabled_animator_mutate after (phase.trans a)

/-- In RUN mode, where no command has an effect (R203) and HOST is not held (I7), a turn leaves the phase or is ANIMATOR's
step to the next one. -/
theorem TurnEffect.phase {s t : State} {r : Result} (he : TurnEffect s r) (hr : r = .next t) (h : s.Inv)
    (run : s.run = true) : PhaseStands s t ∨ t.aphase = s.aphase.next := by
  obtain ⟨_, _, free⟩ := h.running run
  cases he with
  | raised c => rw [raise_next hr]; exact .inl (by simp [PhaseStands])
  | command _ host => simp [run] at host
  | stopCompleted held => simp [free] at held
  | fetchFailed => cases hr
  | delayTicked playing =>
    cases hr
    rw [delayTick_same s]
    exact .inl (by simp [PhaseStands, playing])
  | wordPlayed w playing =>
    cases hr
    rw [playWord_same w s]
    exact .inl (by simp [PhaseStands, playing])
  | expired => cases hr; exact .inl ⟨rfl, fun _ => rfl, id⟩
  | frameStarted _ phase => cases hr; exact .inr (by simp [phase, APhase.next])
  | frameWaited _ phase => cases hr; exact .inr (by simp [phase, APhase.next])
  | frameStopped _ phase => cases hr; exact .inr (by simp [phase, APhase.next])
  | frameMutated _ phase =>
    obtain ⟨_, _, rfl⟩ := sweep_next hr
    exact .inr (by simp [phase, APhase.next])
  | _ => cases hr; exact .inl ⟨rfl, id, id⟩

/-- ANIMATOR's own turn takes its step, if that is enabled. -/
theorem animatorStep_phase {s t : State} (run : s.run = true) (ready : enabled .animator s = true)
    (hr : animatorStep s = .next t) : t.aphase = s.aphase.next := by
  cases a : s.aphase with
  | aStart => cases (animatorStep_of_start run a).symm.trans hr; rfl
  | aWait =>
    have expired : s.waiting = false := by simpa [enabled_animator_wait run a] using ready
    cases (animatorStep_of_wait run a expired).symm.trans hr
    rfl
  | aStop =>
    have done : s.pstate = .done := by simpa [enabled_animator_stop run a] using ready
    cases (animatorStep_of_stop run a done).symm.trans hr
    rfl
  | aMutate =>
    obtain ⟨_, _, rfl⟩ := sweep_next ((animatorStep_of_mutate run a).symm.trans hr)
    rfl

/-! Along a run. -/

/-- In RUN mode, in the phase `a`. -/
def State.inPhase (s : State) (a : APhase) : Prop := s.run = true ∧ s.aphase = a

/-- The step of the phase `a` is enabled, or the phase is over. -/
def State.phaseDue (s : State) (a : APhase) : Prop := s.inPhase a.next ∨ (s.inPhase a ∧ enabled .animator s = true)

/-- From the moment `k` on, a state with Q comes, unless a reset comes. -/
def Comes (r : Nat → State) (k : Nat) (Q : State → Prop) : Prop := ∃ n, k ≤ n ∧ ((takeTurn (r n)).1 = .reset ∨ Q (r n))

theorem Comes.now {r : Nat → State} {k : Nat} {Q : State → Prop} (h : Q (r k)) : Comes r k Q := ⟨k, le_rfl, .inr h⟩

theorem Comes.trans {r : Nat → State} {k : Nat} {Q Q' : State → Prop} (h : Comes r k Q)
    (onward : ∀ n, Q (r n) → Comes r n Q') : Comes r k Q' := by
  obtain ⟨n, le, reset | hQ⟩ := h
  · exact ⟨n, le, .inl reset⟩
  · obtain ⟨m, le', hQ'⟩ := onward n hQ
    exact ⟨m, le.trans le', hQ'⟩

section
variable {r : Nat → State} {n k : Nat} {a : APhase} (run : Run r)
include run

/-- TIMER's turn expires the timer (R196). -/
theorem Run.timer_expires (timer : (takeTurn (r n)).1 = .timer) : (r (n + 1)).waiting = false := by
  obtain ⟨u, _, _, hs, e⟩ := run.next n
  rw [step, timer] at hs
  cases hs
  rw [e]
  rfl

/-- ANIMATOR's turn brings the next phase, if its step is enabled. -/
theorem Run.animator_moves (here : (r n).inPhase a) (ready : enabled .animator (r n) = true)
    (animator : (takeTurn (r n)).1 = .animator) : (r (n + 1)).inPhase a.next := by
  obtain ⟨loop, rfl⟩ := here
  obtain ⟨u, _, _, hs, e⟩ := run.next n
  obtain ⟨stays, _⟩ := runModeIsLeftOnlyByReset _ _ loop (by simp [animator]) hs
  obtain ⟨sched, turns, taken⟩ := exists_of_takeTurn (Prod.eta (takeTurn (r n))).symm
  rw [step, taken, animator] at hs
  have moved := animatorStep_phase (s := { r n with sched := sched, turns := turns }) loop ready hs
  rw [e]
  exact ⟨stays, moved⟩

variable (start : (r 0).Inv)
include start

/-- The next state is in RUN mode, and its phase stands or is the next one. -/
theorem Run.next_inPhase (here : (r n).inPhase a) (noReset : (takeTurn (r n)).1 ≠ .reset) :
    ((r (n + 1)).inPhase a ∧ PhaseStands (r n) (r (n + 1))) ∨ (r (n + 1)).inPhase a.next := by
  obtain ⟨loop, rfl⟩ := here
  obtain ⟨u, sched, cmds, hs, e⟩ := run.next n
  obtain ⟨stays, _⟩ := runModeIsLeftOnlyByReset _ _ loop noReset hs
  obtain ⟨c, s, t, effect⟩ := step_effect noReset
  rw [e]
  obtain stands | moved := effect.phase hs ((run.inv start n).inputs c s t) loop
  · exact .inl ⟨⟨stays, stands.1⟩, stands⟩
  · exact .inr ⟨stays, moved⟩

/-- Weak fairness of ANIMATOR: an enabled step stays enabled, so it is taken. -/
theorem Run.ready_moves (fair : WeaklyFair .animator r) (here : (r k).inPhase a) (ready : enabled .animator (r k) = true) :
    Comes r k (·.inPhase a.next) := by
  refine fair.reaches (P := fun n => (r n).inPhase a ∧ enabled .animator (r n) = true) (fun _ => 0)
    (fun n ⟨_, ready⟩ => ready) (fun n ⟨here, ready⟩ => ?_)
    (fun n ⟨here, ready⟩ animator => .inr (.inl (.inr (run.animator_moves here ready animator)))) ⟨here, ready⟩
  by_cases reset : (takeTurn (r n)).1 = .reset
  · exact .inl (.inl reset)
  · obtain ⟨still, stands⟩ | moved := run.next_inPhase start here reset
    · exact .inr (.inr ⟨⟨still, stands.enabled here.1 still.1 ready⟩, le_rfl⟩)
    · exact .inr (.inl (.inr moved))

/-- While ANIMATOR's step is not enabled another agent `t` is, and each of its turns lowers a measure: then ANIMATOR's step
comes to be enabled, or the phase is over. -/
theorem Run.phaseDue_comes {t : Turn} (fair : WeaklyFair t r) (m : Nat → Nat)
    (other : ∀ n, (r n).inPhase a → enabled .animator (r n) = true ∨ enabled t (r n) = true)
    (fewer : ∀ n, (takeTurn (r n)).1 ≠ .reset → enabled t (r n) = true → enabled t (r (n + 1)) = true →
      m (n + 1) ≤ m n ∧ ((takeTurn (r n)).1 = t → m (n + 1) < m n))
    (here : (r k).inPhase a) : Comes r k (·.phaseDue a) := by
  obtain ready | waits := other k here
  · exact .now (.inr ⟨here, ready⟩)
  have goesOn (n : Nat) (here : (r n).inPhase a) (waits : enabled t (r n) = true) (noReset : (takeTurn (r n)).1 ≠ .reset) :
      (r (n + 1)).phaseDue a ∨ (((r (n + 1)).inPhase a ∧ enabled t (r (n + 1)) = true) ∧
        m (n + 1) ≤ m n ∧ ((takeTurn (r n)).1 = t → m (n + 1) < m n)) := by
    obtain ⟨still, _⟩ | moved := run.next_inPhase start here noReset
    · obtain ready | waitsOn := other _ still
      · exact .inl (.inr ⟨still, ready⟩)
      · exact .inr ⟨⟨still, waitsOn⟩, fewer n noReset waits waitsOn⟩
    · exact .inl (.inl moved)
  refine fair.reaches (P := fun n => (r n).inPhase a ∧ enabled t (r n) = true) m (fun n ⟨_, waits⟩ => waits)
    (fun n ⟨here, waits⟩ => ?_) (fun n ⟨here, waits⟩ turn => ?_) ⟨here, waits⟩ <;>
    by_cases reset : (takeTurn (r n)).1 = .reset
  · exact .inl (.inl reset)
  · exact .inr ((goesOn n here waits reset).imp .inr fun ⟨after, le, _⟩ => ⟨after, le⟩)
  · exact .inl (.inl reset)
  · exact .inr ((goesOn n here waits reset).imp .inr fun ⟨_, _, lt⟩ => lt turn)

/-- R200: while A_WAIT is not enabled TIMER's step is, and its one turn expires the timer. -/
theorem Run.aWait_due (fair : WeaklyFair .timer r) (here : (r k).inPhase .aWait) :
    Comes r k (·.phaseDue .aWait) := by
  refine run.phaseDue_comes start fair (fun _ => 0) ?_ ?_ here
  · rintro n ⟨loop, phase⟩
    rw [enabled_animator_wait loop phase, enabled_timer]
    cases (r n).waiting
    · exact .inl rfl
    · exact .inr rfl
  · intro n _ _ armed
    exact ⟨le_rfl, fun timer => absurd armed (by simp [run.timer_expires timer])⟩

/-- R201: while A_STOP is not enabled the playback goes on (I8), and PLAYER's turns lower the ticks left. -/
theorem Run.aStop_due (fair : WeaklyFair .player r) (here : (r k).inPhase .aStop) :
    Comes r k (·.phaseDue .aStop) := by
  have inv := run.inv start
  refine run.phaseDue_comes start fair (fun n => (r n).ticksLeft) ?_ ?_ here
  · rintro n ⟨loop, phase⟩
    have lent := (inv n).phaseLent loop (.inr phase)
    rw [enabled_animator_stop loop phase, enabled_player]
    cases ps : (r n).pstate with
    | idle => exact absurd ps lent
    | playing => exact .inr rfl
    | done => exact .inl rfl
  · intro n noReset goes still
    obtain done | ⟨_, measure⟩ := run.next_of_playing (inv n) (by simpa using goes) noReset
    · simp [done] at still
    · exact measure

end

/-- In a fair run every phase comes to the next. -/
theorem FairRun.next_phase {r : Nat → State} (fair : FairRun r) (start : (r 0).Inv) {k : Nat} {a : APhase}
    (here : (r k).inPhase a) : Comes r k (·.inPhase a.next) := by
  have due : Comes r k (·.phaseDue a) := by
    cases a with
    | aStart => exact .now (.inr ⟨here, enabled_animator_start here.1 here.2⟩)
    | aWait => exact fair.run.aWait_due start fair.timer here
    | aStop => exact fair.run.aStop_due start fair.player here
    | aMutate => exact .now (.inr ⟨here, enabled_animator_mutate here.1 here.2⟩)
  refine due.trans fun n after => ?_
  obtain moved | ⟨still, enabled⟩ := after
  · exact .now moved
  · exact fair.run.ready_moves start fair.animator still enabled

theorem FairRun.iterate_next_phase {r : Nat → State} (fair : FairRun r) (start : (r 0).Inv) {k : Nat} {a : APhase}
    (here : (r k).inPhase a) (j : Nat) : Comes r k (·.inPhase (APhase.next^[j] a)) := by
  induction j with
  | zero => exact .now here
  | succ j ih =>
    rw [Function.iterate_succ_apply']
    exact ih.trans fun _ => fair.next_phase start

/-- Settles O59: every phase is some number of phases on from the present one. -/
theorem runModeLoopGoesOnInFairRuns : Obligations.RunModeLoopGoesOnInFairRuns := by
  intro r k fair start loop p
  obtain ⟨j, rfl⟩ := APhase.exists_iterate_next (r k).aphase p
  exact fair.iterate_next_phase start ⟨loop, rfl⟩ j

end Sys2Proof.Machine
end

section
/-! PROOFS. A reset (70_reset_and_hazards.md R260): what it leaves does not depend on the state before, apart from the model's
own inputs. -/

namespace Sys2Proof.Machine

/-- The inputs a reset keeps are the only part of the state before that stands after it, and they are no part of the block. -/
@[simp] theorem blockView_resetStep (s : State) : (resetStep s).blockView = State.reset.blockView := rfl

/-- Settles O11: the turn is the reset step, from whose state the block sees nothing of the state before. -/
theorem resetRestoresEveryElement : Obligations.ResetRestoresEveryElement := by
  intro s u turn
  have stepped : step s = .next (resetStep u) := step_of_turn turn
  exact ⟨resetStep u, stepped, blockView_resetStep u⟩

end Sys2Proof.Machine
end

section
/-! PROOFS. The order of turns (10_state.md R44; log 1) and the turn of an agent with no enabled step (log 4). -/

namespace Sys2Proof.Machine

/-- Settles O5: the two cases of taking a turn. -/
theorem turnsAreTakenInOrder : Obligations.TurnsAreTakenInOrder := fun _ =>
  ⟨fun _ _ => takeTurn_cons, takeTurn_nil⟩

/-! `enabled` is false exactly where the agent's step falls through. -/

theorem hostStep_of_disabled {s : State} (disabled : enabled .host s = false) : hostStep s = .next s := by
  cases held : s.hold with
  | hStop =>
    have waits : s.pstate ≠ .done := by simpa [enabled_host_stop held] using disabled
    exact hostStep_of_stop_waits held waits
  | hWait =>
    have armed : s.waiting = true := by simpa [enabled_host_wait held] using disabled
    exact hostStep_of_wait_armed held armed
  | none =>
    have noCommand : s.cmds = [] := by simpa [enabled_host_free held] using disabled
    simp only [hostStep, held, noCommand]

theorem playerStep_of_disabled {s : State} (disabled : enabled .player s = false) : playerStep s = .next s :=
  if_neg (of_decide_eq_false disabled)

/-- TIMER's step lowers WAITING (R196), which is low already where the step is not enabled. -/
theorem timerStep_of_disabled {s : State} (disabled : enabled .timer s = false) : timerStep s = s := by
  have low : s.waiting = false := disabled
  rw [timerStep, ← low]

theorem animatorStep_of_disabled {s : State} (disabled : enabled .animator s = false) : animatorStep s = .next s := by
  obtain ⟨_, still⟩ | ⟨run, phase, _⟩ | ⟨_, _, _, still⟩ | ⟨run, phase, expired, _⟩ | ⟨_, _, _, still⟩ |
    ⟨run, phase, done, _⟩ | ⟨run, phase, _⟩ := animatorStep_cases s
  · exact still
  · simp [enabled_animator_start run phase] at disabled
  · exact still
  · simp [enabled_animator_wait run phase, expired] at disabled
  · exact still
  · simp [enabled_animator_stop run phase, done] at disabled
  · simp [enabled_animator_mutate run phase] at disabled

/-- An agent with no enabled step does nothing at its turn; reset always has one. -/
theorem runTurn_of_disabled {s : State} {t : Turn} (disabled : enabled t s = false) : runTurn t s = .next s := by
  cases t with
  | host => exact hostStep_of_disabled disabled
  | player => exact playerStep_of_disabled disabled
  | timer => exact congrArg _ (timerStep_of_disabled disabled)
  | animator => exact animatorStep_of_disabled disabled
  | reset => cases disabled

/-- Which steps are enabled does not depend on the decided turns and their counter. -/
theorem enabled_of_takeTurn {s u : State} {t : Turn} (turn : takeTurn s = (t, u)) (a : Turn) :
    enabled a u = enabled a s := by
  rw [eq_of_takeTurn turn]
  rfl

theorem step_of_disabled {s u : State} {t : Turn} (turn : takeTurn s = (t, u)) (disabled : enabled t s = false) :
    step s = .next u :=
  (step_of_turn turn).trans (runTurn_of_disabled ((enabled_of_takeTurn turn t).trans disabled))

/-! The conditions as the statement writes them. -/

theorem animator_disabled {s : State}
    (h : s.run = false ∨ (s.aphase = .aWait ∧ s.waiting = true) ∨ (s.aphase = .aStop ∧ s.pstate ≠ .done)) :
    enabled .animator s = false := by
  cases run : s.run with
  | false => exact enabled_animator_host run
  | true =>
    obtain host | ⟨phase, armed⟩ | ⟨phase, waits⟩ := h
    · simp [run] at host
    · simp [enabled_animator_wait run phase, armed]
    · simp [enabled_animator_stop run phase, waits]

theorem host_disabled {s : State}
    (h : (s.hold = .hStop ∧ s.pstate ≠ .done) ∨ (s.hold = .hWait ∧ s.waiting = true) ∨ (s.hold = .none ∧ s.cmds = [])) :
    enabled .host s = false := by
  obtain ⟨held, waits⟩ | ⟨held, armed⟩ | ⟨free, noCommand⟩ := h
  · simp [enabled_host_stop held, waits]
  · simp [enabled_host_wait held, armed]
  · simp [enabled_host_free free, noCommand]

/-- Settles O9: in each of the conditions the agent has no enabled step. -/
theorem disabledTurnChangesNothing : Obligations.DisabledTurnChangesNothing := by
  intro s u t turn conditions
  refine step_of_disabled turn ?_
  obtain ⟨rfl, notPlaying⟩ | ⟨rfl, expired⟩ | ⟨rfl, waits⟩ | ⟨rfl, waits⟩ := conditions
  · exact decide_eq_false notPlaying
  · exact expired
  · exact animator_disabled waits
  · exact host_disabled waits

end Sys2Proof.Machine
end

section
/-! PROOFS. The duty words outside a symbol (42_sequence_player.md R175; log 8). -/

namespace Sys2Proof.Machine

/-- R176: an instruction that is no command plays a duty word. -/
theorem exists_exec_eq_playSymbol {i : Instr} (duty : i.isCommand = false) : ∃ w, ∀ s, exec i s = playSymbol w s := by
  cases i with
  | sym0 => exact ⟨Config.code0, fun _ => rfl⟩
  | sym1 => exact ⟨Config.code1, fun _ => rfl⟩
  | symr => exact ⟨Config.codeR, fun _ => rfl⟩
  | _ => cases duty

/-- Settles O32: whichever word the instruction plays, outside a symbol nothing is played. -/
theorem dutyWordsOutsideASymbolDoNothing : Obligations.DutyWordsOutsideASymbolDoNothing := by
  intro s i duty outside
  obtain ⟨w, plays⟩ := exists_exec_eq_playSymbol duty
  exact (plays s).trans (playSymbol_of_not w outside)

end Sys2Proof.Machine
end
